-- ==== Sys2Proof/Word.lean ====
section
/-! DEFINITION. The words of the block: bytes, 32-bit registers, binary32 patterns, samples, and the
finite name sets that several files share (00_scope.md R9 to R11, 30_encoding.md R102). -/

namespace Sys2Proof

/-- A byte, an unsigned integer in 0..255 (R9). -/
abbrev Byte := BitVec 8

/-- A 32-bit register (R21, R42). -/
abbrev Word := BitVec 32

/-- A binary32 value, identified with its 32-bit pattern (R11, R127). -/
abbrev F32 := BitVec 32

/-- A Complex Sample: an in-phase and a quadrature component (R16). -/
structure ComplexSample where
  i : F32
  q : F32
deriving DecidableEq, Repr, Inhabited

/-- The four Sample Encodings, in the order of their type codes (R102). -/
inductive SampleType where
  | s8 | u8 | i16 | f32
deriving DecidableEq, Repr

/-- The two byte memories (R60). -/
inductive ByteSpace where
  | buf | obuf
deriving DecidableEq, Repr

/-- The three arrays of typed samples (R60). -/
inductive SampleSpace where
  | cbuf | rcbuf | rbuf
deriving DecidableEq, Repr

/-- The binary32 operations whose NaN result is left open (R132). -/
inductive FpOp where
  | add | sub | mul | div | round
deriving DecidableEq, Repr

/-- The filter's internal state: opaque, held as a token (R46, R186). -/
structure FiltSt where
  token : Nat
deriving DecidableEq, Repr, Inhabited

/-- The resampler's internal state: opaque, held as a token (R46, R186). -/
structure RsSt where
  token : Nat
deriving DecidableEq, Repr, Inhabited

/-- The demodulator's internal state: opaque, held as a token (R46, R186). -/
structure DmSt where
  token : Nat
deriving DecidableEq, Repr, Inhabited

end Sys2Proof
end

