-- ==== Sys2Proof/Config.lean ====
section
/-! DEFINITION. What an implementation fixes (00_scope.md R7, R8) and the free values: constants
without a body, of which no proof can know the value. -/

namespace Sys2Proof

/-- Capacity of the Stream Buffer and size of every read request (R7). -/
def Config.bufferSize : Nat := 8192

/-- Capacity of `CBUF` in Complex Samples (R8, R37). -/
def Config.cbufCap : Nat := 4096

/-- `FILTER_TAPS` (R7). -/
def Config.filterTaps : Word := 64

/-- `FILTER_ATTEN_DB` and `RESAMP_ATTEN_DB`, 70.0 (R7, R8, R42). -/
def Config.attenDb : F32 := 0x428C0000

/-- `CENTER_FREQ`, +0.0 (R8, R176). -/
def Config.centerFreq : F32 := 0x00000000

/-- `EXIT_FAIL` (R8, R29). A claim should use only that it is not 0. -/
def Config.exitFail : Word := 1

/-- The seven functions of the Transform Chain port (R185, R186): total, deterministic, `none` is
`fail`. The two length laws of R191 are part of the types. -/
structure TransformChain where
  createFilter : (taps : Nat) → (cutoff atten center : F32) → Option FiltSt
  filterSetGain : FiltSt → (scale : F32) → Option FiltSt
  filterApply : FiltSt → (x : List ComplexSample) →
    Option (FiltSt × { y : List ComplexSample // y.length = x.length })
  createResampler : (ratio atten : F32) → Option RsSt
  resamplerProcess : RsSt → List ComplexSample → Option (RsSt × List ComplexSample)
  createFmDemodulator : (sens : F32) → Option DmSt
  demodProcess : DmSt → (x : List ComplexSample) →
    Option (DmSt × { y : List F32 // y.length = x.length })
deriving Inhabited

/-- The parameter `TC` (R8, D27): the chain the block is connected to.
DESIGN CHOICE, safe: notes/assumptions/4.md. -/
opaque Config.tc : TransformChain

/-- The parameter `M_CAP` (R8, D22): a number, or `none` for unbounded.
DESIGN CHOICE, safe: notes/assumptions/5.md. -/
opaque Config.mCap : Option Nat

/-- The k-th free byte (R15 `draw_8`). DESIGN CHOICE, safe: notes/assumptions/3.md. -/
opaque Config.draw8 : Nat → BitVec 8

/-- The k-th free 16-bit value (R15 `draw_16`). DESIGN CHOICE, safe: notes/assumptions/3.md. -/
opaque Config.draw16 : Nat → BitVec 16

/-- The k-th free 32-bit value (R15 `draw_32`). DESIGN CHOICE, safe: notes/assumptions/3.md. -/
opaque Config.draw32 : Nat → BitVec 32

/-- The k-th free natural number (the counts of U18 and U19).
DESIGN CHOICE, safe: notes/assumptions/17.md. -/
opaque Config.drawNat : Nat → Nat

/-- What a byte that nothing has written reads as (R36, R40, R49, U13).
DESIGN CHOICE, safe: notes/assumptions/2.md. -/
opaque Config.unwrittenByte : ByteSpace → Nat → Byte

/-- What a 32-bit component of a sample that nothing has written reads as (R37 to R39, R49, U13);
the last argument tells I (`false`) from Q (`true`). DESIGN CHOICE, safe: notes/assumptions/2.md. -/
opaque Config.unwrittenSample : SampleSpace → Nat → Bool → F32

/-- What PR0..PR6 hold at reset, by register number: unspecified, and no value a proof could use
(R45, R49, R283). DESIGN CHOICE, safe: notes/assumptions/1.md. -/
opaque Config.unwrittenPr : Fin 7 → BitVec 32

/-- Sign and fraction of the NaN an arithmetic operation returns (R132, U12).
DESIGN CHOICE, safe: notes/assumptions/12.md. -/
opaque Config.nanBits : FpOp → F32 → F32 → BitVec 24

end Sys2Proof
end

