-- ==== Sys2Proof/Machine/Numerics.lean ====
section
/-! DEFINITION. binary32 and the numeric primitives (40_numerics.md), the decided instance of
`NUMERICS` (R128). A finite value is an integer number of units of 2^-149, the least subnormal, so
every exact result is a ratio of integers and one function rounds it. -/

namespace Sys2Proof.Machine

/-- `sint_N` (R10): two's complement. -/
def sint (bits v : Nat) : Int := if v < 2 ^ (bits - 1) then v else (v : Int) - 2 ^ bits

/-- The sign bit (R127). -/
def fSign (w : F32) : Bool := w.msb

/-- Exponent and fraction fields together: the pattern without its sign (R100). -/
def fMag (w : F32) : Nat := w.toNat % 2 ^ 31

/-- The pattern without sign of the infinities. -/
def infMag : Nat := 0x7F800000

/-- NaN: exponent field 255, fraction not 0 (R127). -/
def isNaN (w : F32) : Bool := infMag < fMag w

/-- An infinity (R127). -/
def isInf (w : F32) : Bool := fMag w == infMag

/-- Neither NaN nor infinity (R127). -/
def isFinite (w : F32) : Bool := fMag w < infMag

/-- The magnitude a finite pattern without sign denotes, in units of 2^-149 (R127): the fraction for a
subnormal, else `(2^23 + fraction) * 2^(exponent - 1)`. -/
def magUnits (p : Nat) : Nat :=
  if p < 2 ^ 23 then p else (2 ^ 23 + p % 2 ^ 23) * 2 ^ (p / 2 ^ 23 - 1)

/-- The value of a finite pattern in units of 2^-149 (R127). -/
def units (w : F32) : Int := if fSign w then -(magUnits (fMag w) : Int) else magUnits (fMag w)

/-- Sign and pattern without sign put together. -/
def pack (neg : Bool) (p : Nat) : F32 := BitVec.ofNat 32 (p + if neg then 2 ^ 31 else 0)

/-- The pattern without sign nearest to `num / den` units, ties to the even last bit, infinity when
the rounded magnitude exceeds the largest finite one (R129). The grid spacing is `2^sh` units: one
unit in the subnormal range and the first normal binade, doubling with each further binade. -/
def roundMag (num den : Nat) : Nat :=
  let sh := Nat.log2 (num / den) - 23
  let d := den * 2 ^ sh
  let k := num / d
  let r := num % d
  let up := decide (d < 2 * r) || (decide (2 * r = d) && decide (k % 2 = 1))
  min (sh * 2 ^ 23 + (if up then k + 1 else k)) infMag

/-- The NaN an arithmetic operation returns: which one is open (R132). -/
def arithNaN (op : FpOp) (a b : F32) : F32 :=
  let bits := Config.nanBits op a b
  let frac := bits.toNat % 2 ^ 23
  pack bits.msb (infMag + if frac = 0 then 1 else frac)

/-- The sign bit flipped. -/
def fNeg (w : F32) : F32 := w ^^^ 0x80000000

/-- Addition of two values neither of which is a NaN (R129); `op` names the operation that asks. An
exact zero sum is `+0`, but of two negative zeros `-0` (DEDUCED: notes/assumptions/26.md). -/
def addNum (op : FpOp) (a b : F32) : F32 :=
  if isInf a then
    if isInf b && fSign a != fSign b then arithNaN op a b else a
  else if isInf b then b
  else
    let n := units a + units b
    if n = 0 then pack (fSign a && fSign b) 0
    else pack (decide (n < 0)) (roundMag n.natAbs 1)

/-- `fadd` (R129). -/
def fadd (a b : F32) : F32 := if isNaN a || isNaN b then arithNaN .add a b else addNum .add a b

/-- `fsub` (R129). -/
def fsub (a b : F32) : F32 := if isNaN a || isNaN b then arithNaN .sub a b else addNum .sub a (fNeg b)

/-- `fmul` (R129). -/
def fmul (a b : F32) : F32 :=
  let neg := fSign a != fSign b
  if isNaN a || isNaN b then arithNaN .mul a b
  else if isInf a || isInf b then
    if fMag a = 0 || fMag b = 0 then arithNaN .mul a b else pack neg infMag
  else pack neg (roundMag (magUnits (fMag a) * magUnits (fMag b)) (2 ^ 149))

/-- `fdiv` (R129). -/
def fdiv (a b : F32) : F32 :=
  let neg := fSign a != fSign b
  if isNaN a || isNaN b then arithNaN .div a b
  else if isInf a then
    if isInf b then arithNaN .div a b else pack neg infMag
  else if isInf b then pack neg 0
  else if fMag b = 0 then
    if fMag a = 0 then arithNaN .div a b else pack neg infMag
  else pack neg (roundMag (magUnits (fMag a) * 2 ^ 149) (magUnits (fMag b)))

/-- `i2f` (R131). -/
def i2f (n : Int) : F32 := pack (decide (n < 0)) (roundMag (n.natAbs * 2 ^ 149) 1)

/-- `round_haz` (R133): halves away from zero. The sign bit of the argument is kept on a zero result
(DEDUCED: notes/assumptions/24.md). -/
def roundHaz (x : F32) : F32 :=
  if isNaN x then arithNaN .round x x
  else if isInf x then x
  else pack (fSign x) (roundMag ((magUnits (fMag x) + 2 ^ 148) / 2 ^ 149 * 2 ^ 149) 1)

/-- `trunc` of a finite value (R134): the fraction is discarded. -/
def truncInt (x : F32) : Int :=
  if fSign x then -((magUnits (fMag x) / 2 ^ 149 : Nat) : Int) else (magUnits (fMag x) / 2 ^ 149 : Nat)

/-- The argument of a cast is a finite value whose integer part lies in `lo..hi` (R134). -/
def castOk (lo hi : Int) (x : F32) : Bool :=
  isFinite x && decide (lo ≤ truncInt x) && decide (truncInt x ≤ hi)

/-- `trunc_cast_s8` (R134, R135); `draw` is the value a NaN yields, and also fills the case the spec
leaves undefined (out of range), which R141 makes unreachable (DESIGN CHOICE:
notes/assumptions/13.md). The result is the two's-complement pattern (R124). -/
def truncCastS8 (draw : BitVec 8) (x : F32) : BitVec 8 :=
  if castOk (-128) 127 x then BitVec.ofInt 8 (truncInt x) else draw

/-- `trunc_cast_u8` (R134, R135); `draw` as in `truncCastS8`. -/
def truncCastU8 (draw : BitVec 8) (x : F32) : BitVec 8 :=
  if castOk 0 255 x then BitVec.ofInt 8 (truncInt x) else draw

/-- `trunc_cast_s16` (R134, R135); `draw` as in `truncCastS8`. -/
def truncCastS16 (draw : BitVec 16) (x : F32) : BitVec 16 :=
  if castOk (-32768) 32767 x then BitVec.ofInt 16 (truncInt x) else draw

/-- The place of a pattern that is no NaN in the order of values, infinities included; both zeros have
place 0. -/
def fKey (w : F32) : Int := if fSign w then -(fMag w : Int) else fMag w

/-- The ordered comparison `a > b` (R138): false when either side is a NaN, and the zeros are equal. -/
def fGt (a b : F32) : Bool := !isNaN a && !isNaN b && decide (fKey b < fKey a)

/-- The ordered comparison `a < b` (R138). -/
def fLt (a b : F32) : Bool := fGt b a

/-- The binary32 literals of the formulas (R11). -/
def fOne : F32 := 0x3F800000
def fMinusOne : F32 := 0xBF800000
def fZero : F32 := 0x00000000
def fTwo : F32 := 0x40000000
def f128 : F32 := 0x43000000
def f255 : F32 := 0x437F0000
def f32767 : F32 := 0x46FFFE00
def f32768 : F32 := 0x47000000

/-- `clamp1` (R136). -/
def clamp1 (v : F32) : F32 := if fGt v fOne then fOne else if fLt v fMinusOne then fMinusOne else v

/-- `sqshape` (R137). -/
def sqshape (v : F32) : F32 := if fGt v fZero then fOne else if fLt v fZero then fMinusOne else v

end Sys2Proof.Machine
end

