-- ==== Sys2Proof/Syntax.lean ====
section
/-! DEFINITION. The operations (30_encoding.md R104), the fields of an operation word (R103), and the
items of a configuration line (R110). -/

namespace Sys2Proof

/-- The 22 operations, one constructor per row of spec/opcode_table.json, in its order. An operation
has no operand outside its word: type code and square-wave flag are part of which operation it is. -/
inductive Instr where
  | decS8 | decU8 | decI16 | decF32
  | encS8 | encU8 | encI16 | encF32
  | encS8Sq | encU8Sq | encI16Sq | encF32Sq
  | derive | init
  | start | read | filter | resample | demod | write | flush | next
deriving DecidableEq, Repr

/-- The fields of an operation word in format `OP8` (R103). -/
structure Op8 where
  zero : BitVec 3
  unit : BitVec 2
  sq : BitVec 1
  t : BitVec 2
deriving DecidableEq, Repr

/-- One item of a configuration line (R110). -/
inductive ConfigItem where
  | samplerate (n : Nat)
  | resamplerate (n : Nat)
  | intype (t : SampleType)
  | outtype (t : SampleType)
  | bandwidth (n : Nat)
  | fm
  | deviation (n : Nat)
  | squarewave
deriving DecidableEq, Repr

end Sys2Proof
end

