-- ==== Sys2Proof/Machine/Operands.lean ====
section
/-! DEFINITION. What the operations take apart and put together: type codes, fields of `MODE`, byte
order, input groups and output samples (30_encoding.md), and the two pure functions `Decode` and
`Encode` (41_sample_decoder.md R150, 44_sample_encoder.md R200). -/

namespace Sys2Proof.Machine

/-! ## Type codes (R102) -/

/-- The 2-bit type code (R102). -/
def typeCode : SampleType → BitVec 2
  | .s8 => 0
  | .u8 => 1
  | .i16 => 2
  | .f32 => 3

/-- The Sample Encoding a type code names (R102). -/
def typeOfCode (c : BitVec 2) : SampleType :=
  match c.toNat with
  | 0 => .s8
  | 1 => .u8
  | 2 => .i16
  | _ => .f32

/-- `W_IN`: bytes per complex input sample (R7). -/
def wIn : SampleType → Nat
  | .s8 => 2
  | .u8 => 2
  | .i16 => 4
  | .f32 => 8

/-- `W_OUT`: bytes per real output sample (R7). -/
def wOut : SampleType → Nat
  | .s8 => 1
  | .u8 => 1
  | .i16 => 2
  | .f32 => 4

/-! ## Fields of `MODE` (R24) -/

/-- The bits of `MODE` that are not reserved (R24). -/
def modeMask : Word := 0x00003F3F

/-- `MODE.INTYPE`, bits 1:0. -/
def modeIntypeCode (mode : Word) : BitVec 2 := mode.extractLsb' 0 2
/-- `MODE.OUTTYPE`, bits 3:2. -/
def modeOuttypeCode (mode : Word) : BitVec 2 := mode.extractLsb' 2 2
/-- The input Sample Encoding. -/
def modeIntype (mode : Word) : SampleType := typeOfCode (modeIntypeCode mode)
/-- The output Sample Encoding. -/
def modeOuttype (mode : Word) : SampleType := typeOfCode (modeOuttypeCode mode)
/-- `MODE.SQ`, bit 4. -/
def modeSq (mode : Word) : Bool := mode.getLsbD 4
/-- `MODE.MOD_FM`, bit 5. -/
def modeFm (mode : Word) : Bool := mode.getLsbD 5
/-- `MODE.INTYPE_V`, bit 8. -/
def modeIntypeV (mode : Word) : Bool := mode.getLsbD 8
/-- `MODE.OUTTYPE_V`, bit 9. -/
def modeOuttypeV (mode : Word) : Bool := mode.getLsbD 9
/-- `MODE.SAMPLERATE_V`, bit 10. -/
def modeSamplerateV (mode : Word) : Bool := mode.getLsbD 10
/-- `MODE.RESAMPLERATE_V`, bit 11. -/
def modeResamplerateV (mode : Word) : Bool := mode.getLsbD 11
/-- `MODE.BANDWIDTH_V`, bit 12. -/
def modeBandwidthV (mode : Word) : Bool := mode.getLsbD 12
/-- `MODE.DEVIATION_V`, bit 13. -/
def modeDeviationV (mode : Word) : Bool := mode.getLsbD 13

/-! ## Byte order (R13, R67) -/

/-- The unsigned integer whose little-endian bytes are given (R13). -/
def leNat : List Byte → Nat
  | [] => 0
  | b :: bs => b.toNat + 256 * leNat bs

/-- The `n` little-endian bytes of `v` (R13). -/
def leBytes : Nat → Nat → List Byte
  | 0, _ => []
  | n + 1, v => BitVec.ofNat 8 v :: leBytes n (v / 256)

/-- `MemRead` on the bytes of a group (R13). -/
def memRead (g : List Byte) (a n : Nat) : Nat := leNat ((g.drop a).take n)

/-! ## Input samples (R91 to R94, R152 to R155) -/

/-- `u8map` on the unsigned integer 0..255 (R153): one rounded operation per sign (R139). -/
def u8map (n : Nat) : F32 := fsub (fmul fTwo (fdiv (i2f n) f255)) fOne

/-- `s8map` (R152); the sum `v + 128` is exact (R121). -/
def s8map (b : Nat) : F32 := fsub (fmul fTwo (fdiv (i2f (sint 8 b + 128)) f255)) fOne

/-- `i16map` on the unsigned integer of the two bytes (R154). -/
def i16map (v : Nat) : F32 := fdiv (i2f (sint 16 v)) f32768

/-- One component of a sample from its little-endian unsigned integer (R99). -/
def componentMap : SampleType → Nat → F32
  | .s8, v => s8map v
  | .u8, v => u8map v
  | .i16, v => i16map v
  | .f32, v => BitVec.ofNat 32 v

/-- `cvt_t` (R150): I at the lower byte offsets, Q after it (R68). -/
def cvt (t : SampleType) (g : List Byte) : ComplexSample :=
  { i := componentMap t (memRead g 0 (wIn t / 2))
    q := componentMap t (memRead g (wIn t / 2) (wIn t / 2)) }

/-- The first `n` consecutive groups of `w` bytes (R69). -/
def groups (w : Nat) : Nat → List Byte → List (List Byte)
  | 0, _ => []
  | n + 1, b => b.take w :: groups w n (b.drop w)

/-- `Decode(t, b)` (R150): a remainder shorter than a group is dropped (R70). -/
def decodeSamples (t : SampleType) (b : List Byte) : List ComplexSample :=
  (groups (wIn t) (b.length / wIn t) b).map (cvt t)

/-! ## Output samples (R95 to R98, R200 to R210) -/

/-- `narrow_s8` without the byte assembly (R203). -/
def narrowS8 (draw : BitVec 8) (s : F32) : BitVec 8 :=
  truncCastS8 draw (roundHaz (fsub (fmul f255 (fdiv (fadd s fOne) fTwo)) f128))

/-- `narrow_u8` without the byte assembly (R204): no rounding before the cast. -/
def narrowU8 (draw : BitVec 8) (s : F32) : BitVec 8 :=
  truncCastU8 draw (fmul f255 (fdiv (fadd s fOne) fTwo))

/-- `narrow_i16` without the byte assembly (R205). -/
def narrowI16 (draw : BitVec 16) (s : F32) : BitVec 16 :=
  truncCastS16 draw (roundHaz (fmul s f32767))

/-- `narrow_t` (R200, R203 to R206); `k` numbers the free value a NaN would take (R135). -/
def narrow (t : SampleType) (k : Nat) (s : F32) : List Byte :=
  match t with
  | .s8 => leBytes 1 (narrowS8 (Config.draw8 k) s).toNat
  | .u8 => leBytes 1 (narrowU8 (Config.draw8 k) s).toNat
  | .i16 => leBytes 2 (narrowI16 (Config.draw16 k) s).toNat
  | .f32 => leBytes 4 s.toNat

/-- `shape` (R202). -/
def shape (sq : Bool) (v : F32) : F32 := if sq then sqshape v else clamp1 v

/-- `Encode(t, sq, x)` (R200), sample by sample; sample `j` has the free value `k + j`. -/
def encodeSamples (t : SampleType) (sq : Bool) : Nat → List F32 → List Byte
  | _, [] => []
  | k, v :: vs => narrow t k (shape sq v) ++ encodeSamples t sq (k + 1) vs

end Sys2Proof.Machine
end

