-- ==== Sys2Proof/Machine/State.lean ====
section
/-! DEFINITION. The state of the block and of the environment behind its ports, the reasons a step
can stop, and the state after reset (10_state.md, 20_memory.md, 70_reset_and_hazards.md). -/

namespace Sys2Proof.Machine

/-- `DRV_STATE` (R30). -/
inductive DrvState where
  | idle | running | stopped | failed
deriving DecidableEq, Repr

/-- A byte memory: cells in rising address order, none twice. Stale contents beyond a length register
are kept (R41). An unlisted byte reads as `Config.unwrittenByte`. -/
abbrev Memory := List Host.Cell

/-- The canonical form of a byte memory: addresses strictly rising. -/
abbrev Memory.wf (m : Memory) : Prop := List.Pairwise (fun x y => x.1 < y.1) m

/-- The Pipeline Parameter file PR0..PR6 (R42). -/
structure PrFile where
  taps : Word
  cutoff : F32
  atten : F32
  gain : F32
  ratio : F32
  sens : F32
  center : F32
deriving DecidableEq, Repr

/-- The Transform Chain state `TCS` once it exists (R46). -/
structure ChainSt where
  filt : FiltSt
  rs : RsSt
  dm : DmSt
deriving DecidableEq, Repr

/-- The source's answer to one `SRC.read(8192)` (R63): `ok n` delivers the first `n` bytes of
`IN_REST`, never more than 8192 and never more than there are; `err` is a read failure. -/
inductive SrcReply where
  | ok (n : Nat)
  | err
deriving DecidableEq, Repr

/-- The sink's answer to one `SNK.write` or `SNK.flush` (R64, R65). -/
inductive SnkReply where
  | ok
  | err
deriving DecidableEq, Repr

/-- Answers of the functions of `TC` that the environment has stated; `none` is `fail`. A call that
is not listed is answered by `Config.tc`. A listed answer that breaks a length law of R191 is no
answer (U22). The first entry of a call is the one that counts, so a call has one answer
(DESIGN CHOICE: notes/assumptions/4.md). -/
structure TcFacts where
  createFilter : List ((Nat × F32 × F32 × F32) × Option FiltSt)
  filterSetGain : List ((FiltSt × F32) × Option FiltSt)
  filterApply : List ((FiltSt × List ComplexSample) × Option (FiltSt × List ComplexSample))
  createResampler : List ((F32 × F32) × Option RsSt)
  resamplerProcess : List ((RsSt × List ComplexSample) × Option (RsSt × List ComplexSample))
  createFmDemodulator : List (F32 × Option DmSt)
  demodProcess : List ((DmSt × List ComplexSample) × Option (DmSt × List F32))
deriving DecidableEq, Repr

/-- No answer of `TC` is stated. -/
def TcFacts.none : TcFacts := ⟨[], [], [], [], [], [], []⟩

/-- A port transaction (R77). `srcRead` carries the size asked for, `snkWrite` the number of bytes
handed over. -/
inductive PortEvent where
  | createFilter | filterSetGain | createResampler | createFmDemodulator
  | srcRead (size : Nat)
  | filterApply | resamplerProcess | demodProcess
  | snkWrite (len : Nat)
  | snkFlush
  | errReport
deriving DecidableEq, Repr

/-- The whole state. -/
structure State where
  /-- CR2 `MODE` (R24) -/
  mode : Word
  /-- CR3 `SAMPLERATE` (R25) -/
  samplerate : Word
  /-- CR4 `RESAMPLERATE` (R26) -/
  resamplerate : Word
  /-- CR5 `BANDWIDTH` (R27) -/
  bandwidth : Word
  /-- CR6 `DEVIATION` (R28) -/
  deviation : Word
  /-- CR7 `EXIT_STATUS` (R29) -/
  exitStatus : Word
  /-- `DRV_STATE` (R30) -/
  drvState : DrvState
  /-- `FAULT_CODE` (R31) -/
  faultCode : BitVec 3
  /-- `PHASE`, the program counter (R32) -/
  phase : BitVec 4
  /-- `LAST` (R34) -/
  last : Bool
  /-- `PVALID` (R35) -/
  pvalid : Bool
  /-- PR0..PR6 (R42) -/
  pr : PrFile
  /-- `BUF`, the Stream Buffer (R36) -/
  buf : Memory
  /-- `BUF_LEN` (R36) -/
  bufLen : Nat
  /-- `CBUF` (R37), stale tail included -/
  cbuf : List ComplexSample
  /-- `NC` (R37) -/
  nc : Nat
  /-- `RCBUF` (R38), stale tail included -/
  rcbuf : List ComplexSample
  /-- `M` (R38, R39) -/
  m : Nat
  /-- `RBUF` (R39), stale tail included -/
  rbuf : List F32
  /-- `OBUF` (R40) -/
  obuf : Memory
  /-- `OB_LEN` (R40) -/
  obLen : Nat
  /-- `TCS` (R46) -/
  tcs : Option ChainSt
  /-- `IN_REST`, the unread input (R47) -/
  inRest : List Byte
  /-- `OUT_ACC`, the bytes the sink has accepted (R47) -/
  outAcc : List Byte
  /-- how many bytes of `OUT_ACC` a flush has made visible (R47, R65) -/
  flushed : Nat
  /-- answers of `SRC.read` the source has ready, the next one first (R63) -/
  srcReplies : List SrcReply
  /-- answers of `SNK.write` and `SNK.flush` the sink has ready, the next one first (R64, R65) -/
  snkReplies : List SnkReply
  /-- the chain answers its calls (R269) -/
  tcReady : Bool
  /-- what the environment has stated of `TC` (R186). A parameter of the run (R48): no step writes it,
  and the host only in `IDLE`, before a START command (notes/assumptions/4.md, 28.md) -/
  tcFacts : TcFacts
  /-- `M_CAP`, `none` for unbounded (R8). A parameter (R48): no step and no host move writes it -/
  mCap : Option Nat
  /-- the port transactions made so far, the oldest first (R77) -/
  trace : List PortEvent
  /-- the model's own: `CTRL.START` written and not yet executed (R22) -/
  startReq : Bool
  /-- the model's own: how many free values have been drawn (R15) -/
  draws : Nat
deriving DecidableEq, Repr

/-- Reasons the machine stops. The block's four faults (R250) are not among them: fault entry (R261)
is described by the spec and is a next state. -/
inductive Fault where
  /-- Raised by `FILTER`, `RESAMPLE` and `DEMOD` where `TCS` is none: the chain state they read does
  not exist (R46), and no run reaches such a state (R52). Safe. -/
  | chainAbsent
deriving DecidableEq, Repr

/-- Reasons the machine has no meaning for a situation. -/
inductive Refusal where
  /-- Raised by `exec` for an operation that has no meaning yet. Safe. -/
  | notModelled (mnemonic : String)
  /-- Raised by `step` for a word of no operation (R107, U15). Safe. -/
  | reservedWord
  /-- Raised by `step` in a `PHASE` of 12 to 15, which is never held (R32, R105, U16). Safe. -/
  | phaseNeverHeld
deriving DecidableEq, Repr

/-- What PR0..PR6 store at reset: values no proof can know, since the spec gives none and forbids the
model to give one (R45, R283). DESIGN CHOICE, safe: notes/assumptions/1.md. -/
def PrFile.reset : PrFile where
  taps := Config.unwrittenPr 0
  cutoff := Config.unwrittenPr 1
  atten := Config.unwrittenPr 2
  gain := Config.unwrittenPr 3
  ratio := Config.unwrittenPr 4
  sens := Config.unwrittenPr 5
  center := Config.unwrittenPr 6

/-- The state right after reset (R49, R281). -/
def State.reset : State where
  mode := 0
  samplerate := 0
  resamplerate := 0
  bandwidth := 0
  deviation := 0
  exitStatus := 0
  drvState := .idle
  faultCode := 0
  phase := 0
  last := false
  pvalid := false
  pr := PrFile.reset
  buf := []
  bufLen := 0
  cbuf := []
  nc := 0
  rcbuf := []
  m := 0
  rbuf := []
  obuf := []
  obLen := 0
  tcs := none
  inRest := []
  outAcc := []
  flushed := 0
  srcReplies := []
  snkReplies := []
  tcReady := true
  tcFacts := TcFacts.none
  mCap := Config.mCap
  trace := []
  startReq := false
  draws := 0

end Sys2Proof.Machine
end

