-- ==== Sys2Proof/Machine/Ops.lean ====
section
/-! DEFINITION. Named operations over the buffers, the registers, the ports and the sequencer, and
taking a fault (60_exceptions.md R261). There is no return from a fault (R265), so no operation
stands beside it. -/

namespace Sys2Proof.Machine

/-! ## Byte memories (20_memory.md R60, 10_state.md R41) -/

/-- One byte of a byte memory; a byte nothing has written is a free value (U13). -/
def Memory.read (sp : ByteSpace) (m : Memory) (a : Nat) : Byte :=
  (List.lookup a m).getD (Config.unwrittenByte sp a)

/-- The cells that hold the bytes `d` from address `a` on. -/
def Memory.cells : Nat → List Byte → Memory
  | _, [] => []
  | a, b :: bs => (a, b) :: Memory.cells (a + 1) bs

/-- The bytes `d` stored from address `a` on; every other byte is kept. -/
def Memory.write (m : Memory) (a : Nat) (d : List Byte) : Memory :=
  m.filter (fun c => decide (c.1 < a)) ++ Memory.cells a d ++ m.filter (fun c => decide (a + d.length ≤ c.1))

/-- The `n` bytes from address `a` on, read in rising order. Cells already passed are let go, so one
pass over the memory does. -/
def Memory.reads (sp : ByteSpace) (m : Memory) (a : Nat) : Nat → List Byte
  | 0 => []
  | n + 1 => Memory.read sp m a :: Memory.reads sp (m.dropWhile (fun c => decide (c.1 ≤ a))) (a + 1) n

/-- One byte of `BUF` or `OBUF` in a state. -/
def byteAt (s : State) (sp : ByteSpace) (a : Nat) : Byte :=
  match sp with
  | .buf => Memory.read .buf s.buf a
  | .obuf => Memory.read .obuf s.obuf a

/-- `BUF[0 .. BUF_LEN]`, what `DEC.*` reads (R151). -/
def chunk (s : State) : List Byte := Memory.reads .buf s.buf 0 s.bufLen

/-- `OBUF[0 .. OB_LEN]`, what `WRITE` reads (R233). -/
def outBytes (s : State) : List Byte := Memory.reads .obuf s.obuf 0 s.obLen

/-! ## Sample arrays (10_state.md R37 to R41) -/

/-- Elements `0 .. n-1` of an array; an element nothing has written is a free value (U13). -/
def readArray {α : Type} (free : Nat → α) (l : List α) (n : Nat) : List α :=
  l.take n ++ (List.range' l.length (n - l.length)).map free

/-- `y` stored at the elements `0 .. len(y)-1`; the elements beyond are kept (R41). -/
def writeArray {α : Type} (l y : List α) : List α := y ++ l.drop y.length

/-- A free Complex Sample of an array (U13). -/
def unwrittenComplex (sp : SampleSpace) (k : Nat) : ComplexSample :=
  ⟨Config.unwrittenSample sp k false, Config.unwrittenSample sp k true⟩

/-- `CBUF[0 .. NC]` (R188, R189). -/
def cbufIn (s : State) : List ComplexSample := readArray (unwrittenComplex .cbuf) s.cbuf s.nc

/-- `RCBUF[0 .. M]` (R190). -/
def rcbufIn (s : State) : List ComplexSample := readArray (unwrittenComplex .rcbuf) s.rcbuf s.m

/-- `RBUF[0 .. M]` (R201). -/
def rbufIn (s : State) : List F32 :=
  readArray (fun k => Config.unwrittenSample .rbuf k false) s.rbuf s.m

/-! ## The Pipeline Parameter file (R42 to R45) -/

/-- The file as it is read: while `PVALID = 0` each register is a free value (R45). -/
def prValues (s : State) : PrFile :=
  if s.pvalid then s.pr
  else
    { taps := Config.draw32 s.draws
      cutoff := Config.draw32 (s.draws + 1)
      atten := Config.draw32 (s.draws + 2)
      gain := Config.draw32 (s.draws + 3)
      ratio := Config.draw32 (s.draws + 4)
      sens := Config.draw32 (s.draws + 5)
      center := Config.draw32 (s.draws + 6) }

/-- The counter of free values after a read of the whole file. -/
def prDraws (s : State) : Nat := if s.pvalid then s.draws else s.draws + 7

/-! ## The sequencer -/

/-- `PHASE <- PHASE + 1` (R33). -/
def advance (s : State) : State := { s with phase := s.phase + 1 }

/-- A port transaction is made (R77). -/
def emit (e : PortEvent) (s : State) : State := { s with trace := s.trace ++ [e] }

/-- The fault codes (R250). -/
def fConfig : BitVec 3 := 1
def fRead : BitVec 3 := 2
def fWrite : BitVec 3 := 3
def fXform : BitVec 3 := 4

/-- Fault entry, `raise Fault(c)` (R261): the code recorded, `FAILED`, the exit status, one report.
`PHASE` and everything else is kept; what the operation has not yet written is not written. -/
def raiseFault (c : BitVec 3) (s : State) : State :=
  { s with
    faultCode := c
    drvState := .failed
    exitStatus := Config.exitFail
    trace := s.trace ++ [.errReport] }

/-! ## The Transform Chain port (43_transform_chain.md R185, R186)

An answer the environment has stated is taken; any other call is answered by `Config.tc`. Either way
the answer depends on the arguments alone. -/

/-- `TC.create_filter`. -/
def tcCreateFilter (s : State) (taps : Nat) (cutoff atten center : F32) : Option FiltSt :=
  (s.tcFacts.createFilter.lookup (taps, cutoff, atten, center)).getD
    (Config.tc.createFilter taps cutoff atten center)

/-- `TC.filter_set_gain`. -/
def tcFilterSetGain (s : State) (f : FiltSt) (scale : F32) : Option FiltSt :=
  (s.tcFacts.filterSetGain.lookup (f, scale)).getD (Config.tc.filterSetGain f scale)

/-- What `Config.tc` answers to `filter_apply`. -/
def externalFilterApply (f : FiltSt) (x : List ComplexSample) : Option (FiltSt × List ComplexSample) :=
  (Config.tc.filterApply f x).map (fun p => (p.1, p.2.1))

/-- `TC.filter_apply`. A stated answer of another length is no answer (R191, U22). -/
def tcFilterApply (s : State) (f : FiltSt) (x : List ComplexSample) :
    Option (FiltSt × List ComplexSample) :=
  match s.tcFacts.filterApply.lookup (f, x) with
  | some (some p) => if p.2.length = x.length then some p else externalFilterApply f x
  | some none => none
  | none => externalFilterApply f x

/-- `TC.create_resampler`. -/
def tcCreateResampler (s : State) (ratio atten : F32) : Option RsSt :=
  (s.tcFacts.createResampler.lookup (ratio, atten)).getD (Config.tc.createResampler ratio atten)

/-- `TC.resampler_process`. -/
def tcResamplerProcess (s : State) (r : RsSt) (x : List ComplexSample) :
    Option (RsSt × List ComplexSample) :=
  (s.tcFacts.resamplerProcess.lookup (r, x)).getD (Config.tc.resamplerProcess r x)

/-- `TC.create_fm_demodulator`. -/
def tcCreateFmDemodulator (s : State) (sens : F32) : Option DmSt :=
  (s.tcFacts.createFmDemodulator.lookup sens).getD (Config.tc.createFmDemodulator sens)

/-- What `Config.tc` answers to `demod_process`. -/
def externalDemodProcess (d : DmSt) (x : List ComplexSample) : Option (DmSt × List F32) :=
  (Config.tc.demodProcess d x).map (fun p => (p.1, p.2.1))

/-- `TC.demod_process`. A stated answer of another length is no answer (R191, U22). -/
def tcDemodProcess (s : State) (d : DmSt) (x : List ComplexSample) : Option (DmSt × List F32) :=
  match s.tcFacts.demodProcess.lookup (d, x) with
  | some (some p) => if p.2.length = x.length then some p else externalDemodProcess d x
  | some none => none
  | none => externalDemodProcess d x

/-- `n` samples fit the buffers (R189): `n ≤ M_CAP`, always so when `M_CAP` is unbounded. -/
def fitsCap (cap : Option Nat) (n : Nat) : Bool :=
  match cap with
  | none => true
  | some c => decide (n ≤ c)

end Sys2Proof.Machine
end

