-- ==== Sys2Proof/Machine/ChainStages.lean ====
section
/-! DEFINITION. The operations that call the Transform Chain: `INIT`, `FILTER`, `RESAMPLE`, `DEMOD`
(43_transform_chain.md). While the chain does not answer, each waits and nothing changes (R269). -/

namespace Sys2Proof.Machine

/-- The four creation calls in their order, with the Pipeline Parameters `p`; the first that fails
raises `F_XFORM` and the later ones are not made (R187, R192, R260). -/
def createChain (p : PrFile) (s : State) : State :=
  let s1 := emit .createFilter s
  match tcCreateFilter s p.taps.toNat p.cutoff p.atten p.center with
  | none => raiseFault fXform s1
  | some f0 =>
    let s2 := emit .filterSetGain s1
    match tcFilterSetGain s f0 p.gain with
    | none => raiseFault fXform s2
    | some f1 =>
      let s3 := emit .createResampler s2
      match tcCreateResampler s p.ratio p.atten with
      | none => raiseFault fXform s3
      | some r0 =>
        let s4 := emit .createFmDemodulator s3
        match tcCreateFmDemodulator s p.sens with
        | none => raiseFault fXform s4
        | some d0 => advance { s4 with tcs := some ⟨f1, r0, d0⟩ }

/-- `INIT` (R187). -/
def execInit (s : State) : Host.Outcome State Fault Refusal :=
  if s.tcReady then .next (createChain (prValues s) { s with draws := prDraws s }) else .next s

/-- The call of `FILTER` on an existing chain (R188): the length is kept, and nothing of a failed call
is stored (R192). -/
def filterStage (c : ChainSt) (s : State) : State :=
  let s1 := emit .filterApply s
  match tcFilterApply s c.filt (cbufIn s) with
  | some (f', y) => advance { s1 with tcs := some { c with filt := f' }, cbuf := writeArray s.cbuf y }
  | none => raiseFault fXform s1

/-- `FILTER` (R188). -/
def execFilter (s : State) : Host.Outcome State Fault Refusal :=
  match s.tcs with
  | none => .fault .chainAbsent
  | some c => if s.tcReady then .next (filterStage c s) else .next s

/-- The call of `RESAMPLE` on an existing chain (R189): `M` is the reported length, and more than
`M_CAP` samples are a failure. -/
def resampleStage (c : ChainSt) (s : State) : State :=
  let s1 := emit .resamplerProcess s
  match tcResamplerProcess s c.rs (cbufIn s) with
  | some (r', z) =>
    if fitsCap s.mCap z.length then
      advance { s1 with tcs := some { c with rs := r' }, m := z.length, rcbuf := writeArray s.rcbuf z }
    else raiseFault fXform s1
  | none => raiseFault fXform s1

/-- `RESAMPLE` (R189). -/
def execResample (s : State) : Host.Outcome State Fault Refusal :=
  match s.tcs with
  | none => .fault .chainAbsent
  | some c => if s.tcReady then .next (resampleStage c s) else .next s

/-- The call of `DEMOD` on an existing chain (R190): one Real Sample per Complex Sample. -/
def demodStage (c : ChainSt) (s : State) : State :=
  let s1 := emit .demodProcess s
  match tcDemodProcess s c.dm (rcbufIn s) with
  | some (d', x) => advance { s1 with tcs := some { c with dm := d' }, rbuf := writeArray s.rbuf x }
  | none => raiseFault fXform s1

/-- `DEMOD` (R190). -/
def execDemod (s : State) : Host.Outcome State Fault Refusal :=
  match s.tcs with
  | none => .fault .chainAbsent
  | some c => if s.tcReady then .next (demodStage c s) else .next s

end Sys2Proof.Machine
end

