-- ==== Sys2Proof/Machine/Flags.lean ====
section
/-! DEFINITION. The condition flag, the configuration checks and the `STATUS` view. No arithmetic
operation sets a flag (40_numerics.md R130). -/

namespace Sys2Proof.Machine

/-- `LAST` after a read of `n` bytes (R34, R125, R229): fewer than 8192. -/
def shortRead (n : Nat) : Bool := decide (n < Config.bufferSize)

/-- `RESAMPLERATE` is absent or not 0 (R26). -/
def resamplerateOk (s : State) : Bool := !modeResamplerateV s.mode || s.resamplerate != 0

/-- The check `DERIVE` makes (R170): the three mandatory rates present and not 0. -/
def ratesOk (s : State) : Bool :=
  modeSamplerateV s.mode && modeBandwidthV s.mode && modeDeviationV s.mode &&
  s.samplerate != 0 && s.bandwidth != 0 && s.deviation != 0 && resamplerateOk s

/-- `ok_cfg`, the check `START` makes (R226). -/
def okCfg (s : State) : Bool :=
  modeSamplerateV s.mode && s.samplerate != 0 &&
  modeIntypeV s.mode &&
  modeOuttypeV s.mode &&
  modeBandwidthV s.mode && s.bandwidth != 0 &&
  modeFm s.mode &&
  modeDeviationV s.mode && s.deviation != 0 &&
  resamplerateOk s

/-- The code of `DRV_STATE` (R30). -/
def drvCode : DrvState → BitVec 2
  | .idle => 0
  | .running => 1
  | .stopped => 2
  | .failed => 3

/-- The `STATUS` view (R23): `PHASE` in 11:8, `FAULT_CODE` in 6:4, `PVALID` in 3, `LAST` in 2,
`DRV_STATE` in 1:0, the rest 0. -/
def statusView (s : State) : Word :=
  (0 : BitVec 20) ++ s.phase ++ (0 : BitVec 1) ++ s.faultCode ++ BitVec.ofBool s.pvalid ++
    BitVec.ofBool s.last ++ drvCode s.drvState

end Sys2Proof.Machine
end

