-- ==== Sys2Proof/Machine/ParameterDeriver.lean ====
section
/-! DEFINITION. The Parameter Deriver: `DERIVE` (42_parameter_deriver.md). -/

namespace Sys2Proof.Machine

/-- An integer rate as binary32 (R131, D13). -/
def rateF (w : Word) : F32 := i2f (w.toNat : Int)

/-- `CUTOFF` (R171). -/
def cutoffOf (bandwidth samplerate : Word) : F32 := fdiv (rateF bandwidth) (rateF samplerate)

/-- `RATIO` (R173). -/
def ratioOf (resampling : Bool) (resamplerate samplerate : Word) : F32 :=
  if resampling then fdiv (rateF resamplerate) (rateF samplerate) else fOne

/-- `SENS` (R174): the deviation over the effective output rate. -/
def sensOf (resampling : Bool) (deviation resamplerate samplerate : Word) : F32 :=
  fdiv (rateF deviation) (rateF (if resampling then resamplerate else samplerate))

/-- The Pipeline Parameters of the configuration (R170 to R174, R176). -/
def derivedPr (s : State) : PrFile :=
  { taps := Config.filterTaps
    cutoff := cutoffOf s.bandwidth s.samplerate
    atten := Config.attenDb
    gain := fmul fTwo (cutoffOf s.bandwidth s.samplerate)
    ratio := ratioOf (modeResamplerateV s.mode) s.resamplerate s.samplerate
    sens := sensOf (modeResamplerateV s.mode) s.deviation s.resamplerate s.samplerate
    center := Config.centerFreq }

/-- `DERIVE` (R170). -/
def execDerive (s : State) : Host.Outcome State Fault Refusal :=
  if ratesOk s then .next (advance { s with pr := derivedPr s, pvalid := true })
  else .next (raiseFault fConfig s)

end Sys2Proof.Machine
end

