-- ==== Sys2Proof/Machine/SampleDecoder.lean ====
section
/-! DEFINITION. The Sample Decoder: `DEC.S8`, `DEC.U8`, `DEC.I16`, `DEC.F32` (41_sample_decoder.md). -/

namespace Sys2Proof.Machine

/-- The common part of every `DEC.t` (R151). Elements of `CBUF` beyond `NC` are kept (R41). -/
def decodeChunk (t : SampleType) (s : State) : State :=
  let x := decodeSamples t (chunk s)
  advance { s with nc := x.length, cbuf := writeArray s.cbuf x }

/-- `DEC.S8` (R152). -/
def execDecS8 (s : State) : Host.Outcome State Fault Refusal := .next (decodeChunk .s8 s)

/-- `DEC.U8` (R153). -/
def execDecU8 (s : State) : Host.Outcome State Fault Refusal := .next (decodeChunk .u8 s)

/-- `DEC.I16` (R154). -/
def execDecI16 (s : State) : Host.Outcome State Fault Refusal := .next (decodeChunk .i16 s)

/-- `DEC.F32` (R155). -/
def execDecF32 (s : State) : Host.Outcome State Fault Refusal := .next (decodeChunk .f32 s)

end Sys2Proof.Machine
end

