-- ==== Sys2Proof/Machine/SampleEncoder.lean ====
section
/-! DEFINITION. The Sample Encoder: `ENC.t` and `ENC.t.SQ` (44_sample_encoder.md). -/

namespace Sys2Proof.Machine

/-- The common part of every `ENC.t` and `ENC.t.SQ` (R201). Each of the `M` samples has a free value of
its own, which only a NaN takes (R135); the counter passes them all. -/
def encodeBuffer (t : SampleType) (sq : Bool) (s : State) : State :=
  let y := encodeSamples t sq s.draws (rbufIn s)
  advance { s with
    obuf := Memory.write s.obuf 0 y
    obLen := y.length
    draws := s.draws + s.m }

/-- `ENC.S8` (R203). -/
def execEncS8 (s : State) : Host.Outcome State Fault Refusal := .next (encodeBuffer .s8 false s)

/-- `ENC.U8` (R204). -/
def execEncU8 (s : State) : Host.Outcome State Fault Refusal := .next (encodeBuffer .u8 false s)

/-- `ENC.I16` (R205). -/
def execEncI16 (s : State) : Host.Outcome State Fault Refusal := .next (encodeBuffer .i16 false s)

/-- `ENC.F32` (R206). -/
def execEncF32 (s : State) : Host.Outcome State Fault Refusal := .next (encodeBuffer .f32 false s)

/-- `ENC.S8.SQ` (R207). -/
def execEncS8Sq (s : State) : Host.Outcome State Fault Refusal := .next (encodeBuffer .s8 true s)

/-- `ENC.U8.SQ` (R208). -/
def execEncU8Sq (s : State) : Host.Outcome State Fault Refusal := .next (encodeBuffer .u8 true s)

/-- `ENC.I16.SQ` (R209). -/
def execEncI16Sq (s : State) : Host.Outcome State Fault Refusal := .next (encodeBuffer .i16 true s)

/-- `ENC.F32.SQ` (R210). -/
def execEncF32Sq (s : State) : Host.Outcome State Fault Refusal := .next (encodeBuffer .f32 true s)

end Sys2Proof.Machine
end

