-- ==== Sys2Proof/Machine/StreamingDriver.lean ====
section
/-! DEFINITION. The Streaming Driver: `START`, `READ`, `WRITE`, `FLUSH`, `NEXT`
(45_streaming_driver.md). While a port has no answer ready, `READ`, `WRITE` and `FLUSH` wait and
nothing changes (R230, R269, U20). -/

namespace Sys2Proof.Machine

/-- `START` (R226). -/
def execStart (s : State) : Host.Outcome State Fault Refusal :=
  if okCfg s then .next { s with drvState := .running, phase := 1 }
  else .next (raiseFault fConfig s)

/-- What a source answering `ok n` delivers (R63): the first `n` bytes of the unread input, at most
8192. -/
def delivered (s : State) (n : Nat) : List Byte := s.inRest.take (min n Config.bufferSize)

/-- A read that delivered `d` (R228); the bytes of `BUF` beyond are kept. -/
def storeChunk (d : List Byte) (s : State) : State :=
  advance { s with
    buf := Memory.write s.buf 0 d
    bufLen := d.length
    last := shortRead d.length
    inRest := s.inRest.drop d.length }

/-- `READ` (R228). After `err` nothing is stored; how many bytes the failed read consumed is open
(R252, U19). -/
def execRead (s : State) : Host.Outcome State Fault Refusal :=
  match s.srcReplies with
  | [] => .next s
  | .ok n :: rest =>
    .next (storeChunk (delivered s n) (emit (.srcRead Config.bufferSize) { s with srcReplies := rest }))
  | .err :: rest =>
    .next (raiseFault fRead (emit (.srcRead Config.bufferSize)
      { s with
        srcReplies := rest
        inRest := s.inRest.drop (Config.drawNat s.draws)
        draws := s.draws + 1 }))

/-- `WRITE` (R233). After `err` the sink has accepted some prefix whose length is open (R64, U18). -/
def execWrite (s : State) : Host.Outcome State Fault Refusal :=
  match s.snkReplies with
  | [] => .next s
  | .ok :: rest =>
    .next (advance (emit (.snkWrite s.obLen)
      { s with snkReplies := rest, outAcc := s.outAcc ++ outBytes s }))
  | .err :: rest =>
    .next (raiseFault fWrite (emit (.snkWrite s.obLen)
      { s with
        snkReplies := rest
        outAcc := s.outAcc ++ (outBytes s).take (Config.drawNat s.draws)
        draws := s.draws + 1 }))

/-- `FLUSH` (R235). After `ok` every accepted byte is visible (R65, R79). -/
def execFlush (s : State) : Host.Outcome State Fault Refusal :=
  match s.snkReplies with
  | [] => .next s
  | .ok :: rest =>
    .next (advance (emit .snkFlush { s with snkReplies := rest, flushed := s.outAcc.length }))
  | .err :: rest => .next (raiseFault fWrite (emit .snkFlush { s with snkReplies := rest }))

/-- `NEXT` (R238): back to `S_READ`, or the clean end. -/
def execNext (s : State) : Host.Outcome State Fault Refusal :=
  if s.last then .next { s with drvState := .stopped, exitStatus := 0 }
  else .next { s with phase := 3 }

end Sys2Proof.Machine
end

