-- ==== Sys2Proof/Machine/Dispatch.lean ====
section
/-! DEFINITION. One arm per operation: its meaning. -/

namespace Sys2Proof.Machine

def exec (i : Instr) (s : State) : Host.Outcome State Fault Refusal :=
  match i with
  | .decS8 => Sys2Proof.Machine.execDecS8 s
  | .decU8 => Sys2Proof.Machine.execDecU8 s
  | .decI16 => Sys2Proof.Machine.execDecI16 s
  | .decF32 => Sys2Proof.Machine.execDecF32 s
  | .encS8 => Sys2Proof.Machine.execEncS8 s
  | .encU8 => Sys2Proof.Machine.execEncU8 s
  | .encI16 => Sys2Proof.Machine.execEncI16 s
  | .encF32 => Sys2Proof.Machine.execEncF32 s
  | .encS8Sq => Sys2Proof.Machine.execEncS8Sq s
  | .encU8Sq => Sys2Proof.Machine.execEncU8Sq s
  | .encI16Sq => Sys2Proof.Machine.execEncI16Sq s
  | .encF32Sq => Sys2Proof.Machine.execEncF32Sq s
  | .derive => Sys2Proof.Machine.execDerive s
  | .init => Sys2Proof.Machine.execInit s
  | .start => Sys2Proof.Machine.execStart s
  | .read => Sys2Proof.Machine.execRead s
  | .filter => Sys2Proof.Machine.execFilter s
  | .resample => Sys2Proof.Machine.execResample s
  | .demod => Sys2Proof.Machine.execDemod s
  | .write => Sys2Proof.Machine.execWrite s
  | .flush => Sys2Proof.Machine.execFlush s
  | .next => Sys2Proof.Machine.execNext s

end Sys2Proof.Machine
end

