-- ==== Sys2Proof/WellFormed.lean ====
section
/-! DEFINITION. Which operation words are legal (30_encoding.md R103, R107) and which configuration
lines follow the notation of R110. An `Instr` has no operand, so every `Instr` is well formed. -/

namespace Sys2Proof

/-- The field `ZERO` must be 000 (R103). -/
def Op8.zeroOk (f : Op8) : Bool := f.zero == 0

/-- For `UNIT = DEC` the field `SQ` must be 0 (R103). -/
def Op8.decOk (f : Op8) : Bool := f.unit != 0 || f.sq == 0

/-- For `UNIT = SET` the field `SQ` must be 0 and the function number is 0 or 1 (R103, R107). -/
def Op8.setOk (f : Op8) : Bool := f.unit != 2 || (f.sq == 0 && f.t.toNat ≤ 1)

/-- A word the operation list assigns (R104, R107). -/
def Op8.wf (f : Op8) : Bool := f.zeroOk && f.decOk && f.setOk

/-- `<int>` of R110: 1..4294967295. -/
def rateOk (n : Nat) : Bool := 1 ≤ n && n ≤ 4294967295

/-- The numbers of one item (R110). -/
def ConfigItem.wf : ConfigItem → Bool
  | .samplerate n => rateOk n
  | .resamplerate n => rateOk n
  | .bandwidth n => rateOk n
  | .deviation n => rateOk n
  | .intype _ => true
  | .outtype _ => true
  | .fm => true
  | .squarewave => true

/-- An item of the sub-selector `fm` (R110). -/
def ConfigItem.afterFm : ConfigItem → Bool
  | .deviation _ => true
  | .squarewave => true
  | .samplerate _ => false
  | .resamplerate _ => false
  | .bandwidth _ => false
  | .intype _ => false
  | .outtype _ => false
  | .fm => false

/-- The order of a line (R110): the items of `fm` stand after it, all others before it. The first
argument says whether `fm` has been met. -/
def lineOrderOk : Bool → List ConfigItem → Bool
  | _, [] => true
  | seen, c :: cs => (c.afterFm == seen) && lineOrderOk (seen || c == .fm) cs

/-- A configuration line in the notation of R110. -/
def lineWf (l : List ConfigItem) : Bool := l.all ConfigItem.wf && lineOrderOk false l

end Sys2Proof
end

