-- ==== Sys2Proof/Decode.lean ====
section
/-! DEFINITION. Decoding and encoding operation words (30_encoding.md R103, R104, R106, R107). -/

namespace Sys2Proof

/-- Why a byte string is no operation. -/
inductive Reject where
  /-- there is no byte to read -/
  | noByte
  /-- `ZERO` is not 000: `0x20..0xFF` (R107) -/
  | zeroField
  /-- `UNIT = DEC` with `SQ = 1`: `0x04..0x07` (R107) -/
  | decWithSq
  /-- `UNIT = SET` with `SQ = 1` or an unassigned function: `0x12..0x17` (R107) -/
  | setFunction
deriving DecidableEq, Repr

/-- A row of the operation table: a word `w` selects it when `w &&& mask = code` (R104). -/
structure OpRow where
  code : BitVec 8
  mask : BitVec 8
  instr : Instr
deriving DecidableEq, Repr

/-- The operation list of R104. -/
def opTable : List OpRow :=
  [ ⟨0x00, 0xFF, .decS8⟩, ⟨0x01, 0xFF, .decU8⟩, ⟨0x02, 0xFF, .decI16⟩, ⟨0x03, 0xFF, .decF32⟩,
    ⟨0x08, 0xFF, .encS8⟩, ⟨0x09, 0xFF, .encU8⟩, ⟨0x0A, 0xFF, .encI16⟩, ⟨0x0B, 0xFF, .encF32⟩,
    ⟨0x0C, 0xFF, .encS8Sq⟩, ⟨0x0D, 0xFF, .encU8Sq⟩, ⟨0x0E, 0xFF, .encI16Sq⟩,
    ⟨0x0F, 0xFF, .encF32Sq⟩ ] ++
  [ ⟨0x10, 0xFF, .derive⟩, ⟨0x11, 0xFF, .init⟩,
    ⟨0x18, 0xFF, .start⟩, ⟨0x19, 0xFF, .read⟩, ⟨0x1A, 0xFF, .filter⟩, ⟨0x1B, 0xFF, .resample⟩,
    ⟨0x1C, 0xFF, .demod⟩, ⟨0x1D, 0xFF, .write⟩, ⟨0x1E, 0xFF, .flush⟩, ⟨0x1F, 0xFF, .next⟩ ]

/-- The fields of a word (R103). -/
def op8Fields (w : BitVec 8) : Op8 :=
  { zero := w.extractLsb' 5 3, unit := w.extractLsb' 3 2, sq := w.extractLsb' 2 1, t := w.extractLsb' 0 2 }

/-- Which rule of R103 a word outside the table breaks. -/
def rejectReason (w : BitVec 8) : Reject :=
  if !(op8Fields w).zeroOk then .zeroField
  else if !(op8Fields w).decOk then .decWithSq
  else .setFunction

/-- The operation a word stands for, or why it is reserved (R106, R107). -/
def decodeWord (w : BitVec 8) : Except Reject Instr :=
  match opTable.find? (fun r => w &&& r.mask == r.code) with
  | some r => .ok r.instr
  | none => .error (rejectReason w)

/-- The operation at the head of a byte string, with the rest; every operation is one byte (R109). -/
def decode : List Byte → Except Reject (Instr × List Byte)
  | [] => .error .noByte
  | w :: rest =>
    match decodeWord w with
    | .ok i => .ok (i, rest)
    | .error e => .error e

/-- The word of an operation, assembled from its fields as R103 and R104 give them. -/
def op8Word (unit : BitVec 2) (sq : BitVec 1) (t : BitVec 2) : BitVec 8 :=
  ((0 : BitVec 3) ++ unit ++ sq ++ t)

/-- The word of each operation: unit, bit 2, bits 1:0 (R103, R104). -/
def encodeWord : Instr → BitVec 8
  | .decS8 => op8Word 0 0 0
  | .decU8 => op8Word 0 0 1
  | .decI16 => op8Word 0 0 2
  | .decF32 => op8Word 0 0 3
  | .encS8 => op8Word 1 0 0
  | .encU8 => op8Word 1 0 1
  | .encI16 => op8Word 1 0 2
  | .encF32 => op8Word 1 0 3
  | .encS8Sq => op8Word 1 1 0
  | .encU8Sq => op8Word 1 1 1
  | .encI16Sq => op8Word 1 1 2
  | .encF32Sq => op8Word 1 1 3
  | .derive => op8Word 2 0 0
  | .init => op8Word 2 0 1
  | .start => op8Word 3 0 0
  | .read => op8Word 3 0 1
  | .filter => op8Word 3 0 2
  | .resample => op8Word 3 0 3
  | .demod => op8Word 3 1 0
  | .write => op8Word 3 1 1
  | .flush => op8Word 3 1 2
  | .next => op8Word 3 1 3

/-- The bytes of an operation. -/
def encode (i : Instr) : List Byte := [encodeWord i]

/-- The operation the decoder reads from a word numbered as spec/opcode_table.json numbers it. An
operation word is one byte (R103), so only `nbits` up to 8 and `w` below 256 name one. -/
def decodeTableWord (nbits w : Nat) : Option Instr :=
  if nbits ≤ 8 ∧ w < 256 then
    match decode [BitVec.ofNat 8 w] with
    | .ok (i, _) => some i
    | .error _ => none
  else none

end Sys2Proof
end

