-- ==== Sys2Proof/Machine/Sequencer.lean ====
section
/-! DEFINITION. Which operation comes next (10_state.md R32, R33, 30_encoding.md R105), and how a
given operation is made the next one. -/

namespace Sys2Proof.Machine

/-- `opword(PHASE, MODE)` (R105); `none` for the phases that are never held. -/
def opword (phase : BitVec 4) (mode : Word) : Option (BitVec 8) :=
  match phase.toNat with
  | 0 => some 0x18
  | 1 => some 0x10
  | 2 => some 0x11
  | 3 => some 0x19
  | 4 => some (0x00 ||| (modeIntypeCode mode).zeroExtend 8)
  | 5 => some 0x1A
  | 6 => some 0x1B
  | 7 => some 0x1C
  | 8 => some (0x08 ||| ((mode.extractLsb' 4 1).zeroExtend 8 <<< 2) ||| (modeOuttypeCode mode).zeroExtend 8)
  | 9 => some 0x1D
  | 10 => some 0x1E
  | 11 => some 0x1F
  | _ => none

/-- What the sequencer does at an operation boundary. -/
inductive Issue where
  /-- nothing: no START command in `IDLE`, or a terminal state (R30) -/
  | wait
  /-- the operation of this word is executed in this state -/
  | run (w : BitVec 8) (s : State)
  /-- `PHASE` holds a value that is never held (R32) -/
  | never
deriving DecidableEq, Repr

/-- The START command is taken (R22). -/
def takeStart (s : State) : State := { s with startReq := false }

/-- In `IDLE` a written START command is taken and `START` executed (R22); in `RUNNING` the operation
of `PHASE` is executed (R33); in `STOPPED` and `FAILED` nothing is (R30). -/
def issue (s : State) : Issue :=
  match s.drvState with
  | .idle => if s.startReq then .run 0x18 (takeStart s) else .wait
  | .running =>
    match opword s.phase s.mode with
    | some w => .run w s
    | none => .never
  | .stopped => .wait
  | .failed => .wait

/-- The phase in which the sequencer issues an operation (R32). -/
def phaseOf : Instr → BitVec 4
  | .start => 0
  | .derive => 1
  | .init => 2
  | .read => 3
  | .decS8 => 4
  | .decU8 => 4
  | .decI16 => 4
  | .decF32 => 4
  | .filter => 5
  | .resample => 6
  | .demod => 7
  | .encS8 => 8
  | .encU8 => 8
  | .encI16 => 8
  | .encF32 => 8
  | .encS8Sq => 8
  | .encU8Sq => 8
  | .encI16Sq => 8
  | .encF32Sq => 8
  | .write => 9
  | .flush => 10
  | .next => 11

/-- `MODE` with the fields that select an operation: `INTYPE` for `DEC`, `OUTTYPE` and `SQ` for `ENC`
(R105), taken from the operation's word. -/
def modeFor (w : BitVec 8) (mode : Word) : Word :=
  if w.extractLsb' 3 2 == (0 : BitVec 2) then
    (mode &&& 0xFFFFFFFC) ||| (w.extractLsb' 0 2).zeroExtend 32
  else if w.extractLsb' 3 2 == (1 : BitVec 2) then
    (mode &&& 0xFFFFFFE3) ||| ((w.extractLsb' 0 2).zeroExtend 32 <<< 2) |||
      ((w.extractLsb' 2 1).zeroExtend 32 <<< 4)
  else mode

/-- A chain state for a stage operation that is made the next one where `TCS` is none. -/
def someChain : ChainSt := ⟨⟨0⟩, ⟨0⟩, ⟨0⟩⟩

/-- The operations that read `TCS` (R51). -/
def isStage (i : Instr) : Bool := i == .filter || i == .resample || i == .demod

/-- The state in which the sequencer's next operation is `i`: `PHASE`, the selecting fields of `MODE`,
`DRV_STATE` (`IDLE` with the START command written for `START`, else `RUNNING`), and for the three
stages an existing chain. -/
def placeInstr (i : Instr) (s : State) : State :=
  { s with
    drvState := if i == .start then .idle else .running
    startReq := if i == .start then true else s.startReq
    phase := phaseOf i
    mode := modeFor (encodeWord i) s.mode
    tcs := if isStage i then some (s.tcs.getD someChain) else s.tcs }

/-- `placeInstr` for a decoded word. A reserved word can never be the next one (R107): the state is
then one whose `PHASE` is never held, so that the next step refuses. -/
def placeWord (i : Option Instr) (s : State) : State :=
  match i with
  | some i => placeInstr i s
  | none => { s with drvState := .running, phase := 15 }

end Sys2Proof.Machine
end

