-- ==== Sys2Proof/Machine/Step.lean ====
section
/-! DEFINITION. One step of the block: the sequencer issues an operation word, the decoder reads it, and
the operation is executed (10_state.md R33, 30_encoding.md R105). -/

namespace Sys2Proof.Machine

/-- An operation word executed: the machine refuses a reserved one (R107). -/
def runWord (w : BitVec 8) (s : State) : Host.Outcome State Fault Refusal :=
  match decode [w] with
  | .ok (i, _) => exec i s
  | .error _ => .refused .reservedWord

/-- One step. Where the sequencer executes nothing the state stays as it is. -/
def step (s : State) : Host.Outcome State Fault Refusal :=
  match issue s with
  | .wait => .next s
  | .run w s' => runWord w s'
  | .never => .refused .phaseNeverHeld

/-- The state with the operation of a table word made the next one. The block fetches no program: the
word is formed from `PHASE` and `MODE` (R105), so these are set (notes/assumptions/8.md, 21.md). -/
def State.withFetchWord (s : State) (nbits w : Nat) : State := placeWord (decodeTableWord nbits w) s

end Sys2Proof.Machine
end

