-- ==== Sys2Proof/Machine/HostPort.lean ====
section
/-! DEFINITION. The host's moves (60_exceptions.md R267): register accesses, reset, the streams, the
answers at the ports, and a configuration line. A move lands between two operations (R72, R78). -/

namespace Sys2Proof.Machine

/-! ## Register accesses (10_state.md R21 to R29) -/

/-- A host read of CR0..CR7 (R21); it has no side effect (R73). -/
def hostReadCR (s : State) (n : Fin 8) : Word :=
  match n.val with
  | 0 => 0
  | 1 => statusView s
  | 2 => s.mode
  | 3 => s.samplerate
  | 4 => s.resamplerate
  | 5 => s.bandwidth
  | 6 => s.deviation
  | _ => s.exitStatus

/-- CR2..CR6 take a host write (R21, R80): in `IDLE`, and not once a START command has been written,
which the block executes before any later write (notes/assumptions/8.md). -/
def configurable (s : State) : Bool := s.drvState == .idle && !s.startReq

/-- A host write of CR0..CR7 (R21 to R29). CR1 and CR7 are read-only; the reserved bits of `MODE`
ignore writes (R24); a START command is kept until the next step executes it (R22). -/
def hostWriteCR (s : State) (n : Fin 8) (v : Word) : State :=
  match n.val with
  | 0 => if v.getLsbD 0 && s.drvState == .idle then { s with startReq := true } else s
  | 2 => if configurable s then { s with mode := v &&& modeMask } else s
  | 3 => if configurable s then { s with samplerate := v } else s
  | 4 => if configurable s then { s with resamplerate := v } else s
  | 5 => if configurable s then { s with bandwidth := v } else s
  | 6 => if configurable s then { s with deviation := v } else s
  | _ => s

/-- A host read of PR0..PR6 (R44): before `DERIVE` a free value, fresh at each read (R45). -/
def hostReadPR (s : State) (n : Fin 7) : Word × State :=
  if s.pvalid then
    (match n.val with
     | 0 => s.pr.taps
     | 1 => s.pr.cutoff
     | 2 => s.pr.atten
     | 3 => s.pr.gain
     | 4 => s.pr.ratio
     | 5 => s.pr.sens
     | _ => s.pr.center, s)
  else (Config.draw32 s.draws, { s with draws := s.draws + 1 })

/-! ## Reset (70_reset_and_hazards.md R280 to R286) -/

/-- What the sink has accepted when reset abandons the operation in progress (R286): of a `WRITE` that
waits for its answer, some prefix whose length is open (R64). -/
def acceptedAtReset (s : State) : List Byte :=
  if s.drvState == .running && s.phase == 9 then
    s.outAcc ++ (outBytes s).take (Config.drawNat s.draws)
  else s.outAcc

/-- Assertion of reset, in any state (R280): the block is as after reset (R281), nothing of it survives
(R282), and the unread input is gone with the process. What belongs to the environment stays: the
output accepted (R286) and its visibility, the answers of the ports, the chain, the record of
transactions, the parameter `M_CAP`; so does the model's counter of free values. -/
def hostReset (s : State) : State :=
  { State.reset with
    outAcc := acceptedAtReset s
    flushed := s.flushed
    srcReplies := s.srcReplies
    snkReplies := s.snkReplies
    tcReady := s.tcReady
    tcFacts := s.tcFacts
    mCap := s.mCap
    trace := s.trace
    draws := s.draws + 1 }

/-! ## Streams and answers (R267, R285) -/

/-- The ports are connected for a new run (R285, R288): the input there is so far, no output yet, no
answer ready and no transaction made. It must come before START (R288) and has no effect later: not once
a START command has been written, nor in `RUNNING`, `STOPPED` or `FAILED`.
DESIGN CHOICE: R267's table has no row for it, notes/assumptions/28.md. -/
def hostConnect (input : List Byte) (s : State) : State :=
  if configurable s then
    { s with inRest := input, outAcc := [], flushed := 0, srcReplies := [], snkReplies := [], trace := [] }
  else s

/-- More bytes of the input stream come to stand behind `SRC`, in any state (R50), after those there. A
host that supplies without end is the endless source of R239.
DESIGN CHOICE: R267's table has no row for it, notes/assumptions/28.md. -/
def supplySrc (more : List Byte) (s : State) : State := { s with inRest := s.inRest ++ more }

/-- The source has one more answer ready (R63), in any state, before or after it is asked
(DESIGN CHOICE: notes/assumptions/6.md). -/
def answerSrc (r : SrcReply) (s : State) : State := { s with srcReplies := s.srcReplies ++ [r] }

/-- The sink has one more answer ready (R64, R65), in any state, before or after it is asked
(DESIGN CHOICE: notes/assumptions/6.md). -/
def answerSnk (r : SnkReply) (s : State) : State := { s with snkReplies := s.snkReplies ++ [r] }

/-- The answers of an honest source to a whole stream (R63 (3), R240): every read filled until fewer
than 8192 bytes remain. -/
def honestReplies (len : Nat) : List SrcReply :=
  List.replicate (len / Config.bufferSize + 1) (.ok Config.bufferSize)

/-- What the environment states of the chain (R186). The chain is a parameter, fixed for a run (R48),
and is connected before START (R288): later the move has no effect, so that a call has one answer in a
run. DESIGN CHOICE: R267's table has no row for it, notes/assumptions/28.md. -/
def stateTc (f : TcFacts) (s : State) : State := if configurable s then { s with tcFacts := f } else s

/-- The chain answers, or holds its answer, from now on (R269; DESIGN CHOICE:
notes/assumptions/23.md). -/
def holdTc (ready : Bool) (s : State) : State := { s with tcReady := ready }

/-! ## A configuration line (30_encoding.md R110, R111) -/

/-- `MODE` with one more bit set, written back. -/
def setModeBits (bits : Word) (s : State) : State := hostWriteCR s 2 (hostReadCR s 2 ||| bits)

/-- What one item writes (R111). -/
def assembleItem (s : State) : ConfigItem → State
  | .samplerate n => setModeBits 0x400 (hostWriteCR s 3 (BitVec.ofNat 32 n))
  | .resamplerate n => setModeBits 0x800 (hostWriteCR s 4 (BitVec.ofNat 32 n))
  | .intype t =>
    hostWriteCR s 2 ((hostReadCR s 2 &&& 0xFFFFFFFC) ||| (typeCode t).zeroExtend 32 ||| 0x100)
  | .outtype t =>
    hostWriteCR s 2 ((hostReadCR s 2 &&& 0xFFFFFFF3) ||| ((typeCode t).zeroExtend 32 <<< 2) ||| 0x200)
  | .bandwidth n => setModeBits 0x1000 (hostWriteCR s 5 (BitVec.ofNat 32 n))
  | .fm => setModeBits 0x20 s
  | .deviation n => setModeBits 0x2000 (hostWriteCR s 6 (BitVec.ofNat 32 n))
  | .squarewave => setModeBits 0x10 s

/-- CR2..CR6 written back to their reset values, from which a line starts (R111). -/
def clearConfig (s : State) : State :=
  let s := hostWriteCR s 2 State.reset.mode
  let s := hostWriteCR s 3 State.reset.samplerate
  let s := hostWriteCR s 4 State.reset.resamplerate
  let s := hostWriteCR s 5 State.reset.bandwidth
  hostWriteCR s 6 State.reset.deviation

/-- A configuration line assembled into the registers, from the reset values of CR2..CR6, so that an
omitted item leaves its presence bit 0; then `CTRL.START = 1` (R111). -/
def assemble (line : List ConfigItem) (s : State) : State :=
  hostWriteCR (line.foldl assembleItem (clearConfig s)) 0 1

end Sys2Proof.Machine
end

