-- ==== Sys2Proof/Safety.lean ====
section
/-! DEFINITION. The terms claims use: the invariants of reachable states (10_state.md R30 to R41, R52),
the order of port transactions (20_memory.md R77), and names for groups of operations. -/

namespace Sys2Proof.Machine

/-! ## Operations by their operands -/

/-- `DEC.t` (R104). -/
def decOf : SampleType → Instr
  | .s8 => .decS8
  | .u8 => .decU8
  | .i16 => .decI16
  | .f32 => .decF32

/-- `ENC.t` and `ENC.t.SQ` (R104). -/
def encOf : SampleType → Bool → Instr
  | .s8, false => .encS8
  | .u8, false => .encU8
  | .i16, false => .encI16
  | .f32, false => .encF32
  | .s8, true => .encS8Sq
  | .u8, true => .encU8Sq
  | .i16, true => .encI16Sq
  | .f32, true => .encF32Sq

/-- The operation of a `PHASE` (the table of R32). -/
def opOfPhase (phase : Nat) (mode : Word) : Option Instr :=
  match phase with
  | 0 => some .start
  | 1 => some .derive
  | 2 => some .init
  | 3 => some .read
  | 4 => some (decOf (modeIntype mode))
  | 5 => some .filter
  | 6 => some .resample
  | 7 => some .demod
  | 8 => some (encOf (modeOuttype mode) (modeSq mode))
  | 9 => some .write
  | 10 => some .flush
  | 11 => some .next
  | _ => none

/-- The fault codes an operation may raise (R250). -/
def faultCodesOf : Instr → List (BitVec 3)
  | .start => [1]
  | .derive => [1]
  | .read => [2]
  | .write => [3]
  | .flush => [3]
  | .init => [4]
  | .filter => [4]
  | .resample => [4]
  | .demod => [4]
  | .decS8 => []
  | .decU8 => []
  | .decI16 => []
  | .decF32 => []
  | .encS8 => []
  | .encU8 => []
  | .encI16 => []
  | .encF32 => []
  | .encS8Sq => []
  | .encU8Sq => []
  | .encI16Sq => []
  | .encF32Sq => []
  | .next => []

/-! ## Invariants -/

/-- The byte at an address has been written. -/
def Written (m : Memory) (a : Nat) : Prop := (List.lookup a m).isSome

/-- What holds in every reachable state (R52 and the rules it gathers). -/
structure State.Inv (s : State) : Prop where
  /-- `BUF` is in canonical form -/
  bufWf : Memory.wf s.buf
  /-- `OBUF` is in canonical form -/
  obufWf : Memory.wf s.obuf
  /-- no index of `BUF` outside its capacity is ever formed (R61) -/
  bufCap : ∀ c ∈ s.buf, c.1 < Config.bufferSize
  /-- `BUF_LEN ≤ 8192` (R36) -/
  bufLen_le : s.bufLen ≤ Config.bufferSize
  /-- `NC ≤ 4096` (R37) -/
  nc_le : s.nc ≤ Config.cbufCap
  /-- `M ≤ M_CAP` (R38) -/
  m_fits : fitsCap s.mCap s.m = true
  /-- no byte is read before it is written (R41) -/
  bufWritten : ∀ a, a < s.bufLen → Written s.buf a
  /-- no byte is read before it is written (R41) -/
  obufWritten : ∀ a, a < s.obLen → Written s.obuf a
  /-- no sample is read before it is written (R41) -/
  cbufWritten : s.nc ≤ s.cbuf.length
  /-- no sample is read before it is written (R41) -/
  rcbufWritten : s.m ≤ s.rcbuf.length
  /-- no sample is read before it is written (R41) -/
  rbufWritten : 8 ≤ s.phase.toNat → s.m ≤ s.rbuf.length
  /-- the reserved bits of `MODE` read 0 (R24) -/
  modeReserved : s.mode &&& ~~~modeMask = 0
  /-- `PHASE` 12 to 15 are never held (R32) -/
  phase_le : s.phase.toNat ≤ 11
  /-- `IDLE` is phase 0, and nowhere else does the run begin (R30, R32) -/
  idlePhase : s.drvState = .idle → s.phase = 0
  /-- `RUNNING` is phase 1 to 11 (R226) -/
  runningPhase : s.drvState = .running → 1 ≤ s.phase.toNat
  /-- `STOPPED` is reached by `NEXT` with `LAST = 1` only (R238) -/
  stoppedAt : s.drvState = .stopped → s.phase = 11 ∧ s.last = true ∧ s.exitStatus = 0
  /-- `FAULT_CODE ≠ 0` if and only if `FAILED` (R31) -/
  failed_iff : s.drvState = .failed ↔ s.faultCode ≠ 0
  /-- `FAULT_CODE` values 5 to 7 never occur (R31) -/
  faultCode_le : s.faultCode.toNat ≤ 4
  /-- a failed run has a non-zero exit status (R29) -/
  failedExit : s.drvState = .failed → s.exitStatus ≠ 0
  /-- a START command waits in `IDLE` only -/
  startIdle : s.startReq = true → s.drvState = .idle
  /-- past `START` the configuration is valid (R226) -/
  cfgValid : 1 ≤ s.phase.toNat → okCfg s = true
  /-- `PVALID = 1` whenever `PHASE ≥ 2` (R52) -/
  pvalidFrom : 2 ≤ s.phase.toNat → s.pvalid = true
  /-- `TCS ≠ none` whenever `PHASE ≥ 3` (R52) -/
  chainFrom : 3 ≤ s.phase.toNat → s.tcs.isSome = true
  /-- from a `READ` to the next, `LAST = 1` if and only if it delivered fewer than 8192 bytes (R52) -/
  lastIs : 4 ≤ s.phase.toNat → (s.last = true ↔ s.bufLen < Config.bufferSize)
  /-- after `DEC.t`, `NC = floor(BUF_LEN / W_IN(t))` (R52) -/
  ncIs : 5 ≤ s.phase.toNat → s.nc = s.bufLen / wIn (modeIntype s.mode)
  /-- after `ENC.t`, `OB_LEN = M * W_OUT(t)` (R52) -/
  obLenIs : 9 ≤ s.phase.toNat → s.obLen = s.m * wOut (modeOuttype s.mode)
  /-- only accepted bytes are visible (R65) -/
  flushed_le : s.flushed ≤ s.outAcc.length

/-! ## The order of port transactions (R77) -/

/-- The kind of a transaction, without the length a write carries. -/
def PortEvent.kind : PortEvent → PortEvent
  | .snkWrite _ => .snkWrite 0
  | e => e

/-- The four calls of `INIT` (R187). -/
def setupEvents : List PortEvent :=
  [.createFilter, .filterSetGain, .createResampler, .createFmDemodulator]

/-- The transactions of one iteration (R77). -/
def iterationEvents : List PortEvent :=
  [.srcRead 8192, .filterApply, .resamplerProcess, .demodProcess, .snkWrite 0, .snkFlush]

/-- How many transactions of an iteration lie before a phase. -/
def eventsBefore (phase : Nat) : Nat :=
  match phase with
  | 4 => 1
  | 5 => 1
  | 6 => 2
  | 7 => 3
  | 8 => 4
  | 9 => 4
  | 10 => 5
  | 11 => 6
  | _ => 0

/-- The transactions of `n` whole iterations after the setup. -/
def wholeRuns (n : Nat) : List PortEvent := setupEvents ++ (List.replicate n iterationEvents).flatten

/-- The transactions made so far are those R77 gives: none before `INIT`; after it the setup, some whole
iterations and the part of the present one that lies before `PHASE`; in `FAILED`, a prefix of such a
sequence and one `ERR.report`. -/
structure State.TraceInv (s : State) : Prop where
  before : s.drvState ≠ .failed → s.phase.toNat ≤ 2 → s.trace = []
  during : s.drvState ≠ .failed → 3 ≤ s.phase.toNat → ∃ n,
    s.trace.map PortEvent.kind = wholeRuns n ++ iterationEvents.take (eventsBefore s.phase.toNat)
  after : s.drvState = .failed → ∃ n cut,
    cut <+: wholeRuns n ∧ s.trace.map PortEvent.kind = cut ++ [.errReport]

/-! ## One iteration -/

/-- `k` steps of the block, stopping at the first that is not a next state. -/
def runSteps (k : Nat) (s : State) : Host.Outcome State Fault Refusal := Sys2Proof.core.run k s

end Sys2Proof.Machine
end

