-- ==== Sys2Proof/Certificates/Slice0/Obligations.lean ====
section
/-! DEFINITION. The statements for the provers. A free value (`Config`'s constants without a body) is
never given a value by a statement: each holds whatever it is. -/

open Sys2Proof Sys2Proof.Machine

/-! ## Operation words -/

/-- R104, R106, R109: an operation encoded and read again is the same operation, and the bytes after
its one byte are left over. -/
def Obligations.DecodeOfEncode : Prop :=
  ∀ (i : Instr) (rest : List Byte), decode (encode i ++ rest) = .ok (i, rest)

/-- R107: exactly the words `0x04..0x07`, `0x12..0x17` and `0x20..0xFF` are reserved; the machine
refuses a reserved word; and the sequencer never forms one, whatever the state. -/
def Obligations.ReservedWordsRefused : Prop :=
  (∀ w : BitVec 8, (∀ i, decodeWord w ≠ .ok i) ↔
    (0x04 ≤ w.toNat ∧ w.toNat ≤ 0x07) ∨ (0x12 ≤ w.toNat ∧ w.toNat ≤ 0x17) ∨ 0x20 ≤ w.toNat) ∧
  (∀ (w : BitVec 8) (s : State), (∀ i, decodeWord w ≠ .ok i) → runWord w s = .refused .reservedWord) ∧
  (∀ (s s' : State) (w : BitVec 8), issue s = .run w s' → ∃ i, decodeWord w = .ok i)

/-- R105: the word of each phase, in arithmetic on `MODE`: phase 4 takes bits 1:0, phase 8 takes bits
3:2 and bit 4; phases 12 to 15, which are never held, have none, and the machine refuses there. -/
def Obligations.OperationWordOfPhase : Prop :=
  (∀ s : State, s.drvState = .running → 12 ≤ s.phase.toNat → step s = .refused .phaseNeverHeld) ∧
  ∀ (p : BitVec 4) (mode : Word), (opword p mode).map BitVec.toNat =
    match p.toNat with
    | 0 => some 0x18
    | 1 => some 0x10
    | 2 => some 0x11
    | 3 => some 0x19
    | 4 => some (mode.toNat % 4)
    | 5 => some 0x1A
    | 6 => some 0x1B
    | 7 => some 0x1C
    | 8 => some (8 + 4 * (mode.toNat / 16 % 2) + mode.toNat / 4 % 4)
    | 9 => some 0x1D
    | 10 => some 0x1E
    | 11 => some 0x1F
    | _ => none

/-- R103, R104: a few words, assembled from their fields, and what they stand for. -/
def Obligations.SpecWordsDecode : Prop :=
  decodeWord 0x02 = .ok .decI16 ∧ decodeWord 0x09 = .ok .encU8 ∧ decodeWord 0x0F = .ok .encF32Sq ∧
  decodeWord 0x11 = .ok .init ∧ decodeWord 0x1C = .ok .demod ∧ decodeWord 0x1F = .ok .next

/-! ## The sequencer -/

/-- R22, R33, R105: a step in `RUNNING` is the operation the word of the phase decodes to, on the same
state; a step in `IDLE` with a START command written is `START`, with the command taken (that it waits in
State for the step is the model's: notes/assumptions/8.md). -/
def Obligations.StepRunsDecodedOperation : Prop :=
  (∀ (s : State) (w : BitVec 8) (i : Instr) (rest : List Byte), s.drvState = .running →
    opword s.phase s.mode = some w → decode (w :: rest) = .ok (i, rest) → step s = exec i s) ∧
  (∀ s : State, s.drvState = .idle → s.startReq = true →
    step s = exec .start { s with startReq := false })

/-- R22, R30, R32: nothing is executed in `STOPPED`, in `FAILED`, or in `IDLE` without a START command
(that the step then leaves the state as it is, is the model's: notes/assumptions/9.md). -/
def Obligations.SequencerRests : Prop :=
  (∀ s : State, s.drvState = .stopped ∨ s.drvState = .failed → step s = .next s) ∧
  (∀ s : State, s.drvState = .idle → s.startReq = false → step s = .next s)

/-- The table of R32, with R81: in `RUNNING` the operation executed at each phase is the one the table
names, `DEC.<INTYPE>` at phase 4 and `ENC.<OUTTYPE>` or its `.SQ` form at phase 8. -/
def Obligations.PhaseSelectsOperation : Prop :=
  ∀ (s : State) (i : Instr), s.drvState = .running → opOfPhase s.phase.toNat s.mode = some i →
    step s = exec i s

/-- R239, R33: the only control transfers. In `RUNNING`: waiting, forward by one from every phase but
11, back from 11 to 3 with `LAST = 0`, the stop at 11 with `LAST = 1`, and the abort, which keeps the
phase. In `IDLE`: resting, the start, and its abort. -/
def Obligations.ControlTransfers : Prop :=
  (∀ s t : State, s.drvState = .running → step s = .next t →
    t = s ∨
    (t.drvState = .running ∧ s.phase ≠ 11 ∧ t.phase = s.phase + 1) ∨
    (t.drvState = .running ∧ s.phase = 11 ∧ s.last = false ∧ t.phase = 3) ∨
    (t.drvState = .stopped ∧ s.phase = 11 ∧ s.last = true ∧ t.phase = 11) ∨
    (t.drvState = .failed ∧ t.phase = s.phase)) ∧
  (∀ s t : State, s.drvState = .idle → step s = .next t →
    t = s ∨ (t.drvState = .running ∧ t.phase = 1) ∨ (t.drvState = .failed ∧ t.phase = s.phase))

/-! ## Reset and the host -/

/-- R49, R281: every value the spec gives for reset. -/
def Obligations.ResetState : Prop :=
  State.reset.mode = 0 ∧ State.reset.samplerate = 0 ∧ State.reset.resamplerate = 0 ∧
  State.reset.bandwidth = 0 ∧ State.reset.deviation = 0 ∧ State.reset.exitStatus = 0 ∧
  State.reset.drvState = .idle ∧ State.reset.faultCode = 0 ∧ State.reset.phase = 0 ∧
  State.reset.last = false ∧ State.reset.pvalid = false ∧ State.reset.bufLen = 0 ∧
  State.reset.nc = 0 ∧ State.reset.m = 0 ∧ State.reset.obLen = 0 ∧ State.reset.tcs = none ∧
  State.reset.outAcc = [] ∧ hostReadCR State.reset 0 = 0 ∧ hostReadCR State.reset 1 = 0

/-- R280 to R283, R286: reset asserted in any state. The block's registers, buffers and chain are as
after reset, a START command not yet executed is gone, the unread input is gone, and the output accepted
so far stays, with a prefix of the bytes of a `WRITE` that was waiting. What is kept is the
environment's (notes/assumptions/15.md). -/
def Obligations.ResetAbandonsRun : Prop :=
  ∀ s : State,
    hostReset s = { State.reset with
      outAcc := (hostReset s).outAcc, flushed := s.flushed, srcReplies := s.srcReplies,
      snkReplies := s.snkReplies, tcReady := s.tcReady, tcFacts := s.tcFacts, mCap := s.mCap,
      trace := s.trace, draws := (hostReset s).draws } ∧
    s.draws < (hostReset s).draws ∧
    (s.drvState ≠ .running ∨ s.phase ≠ 9 → (hostReset s).outAcc = s.outAcc) ∧
    (∃ p, p <+: outBytes s ∧ (hostReset s).outAcc = s.outAcc ++ p)

/-- R23: the fields of `STATUS`, a view that a write does not touch; the codes of `DRV_STATE` are those
of R30. -/
def Obligations.StatusFields : Prop :=
  ∀ s : State,
    (∀ v, hostWriteCR s 1 v = s) ∧
    ((hostReadCR s 1).extractLsb' 0 2).toNat =
      (match s.drvState with | .idle => 0 | .running => 1 | .stopped => 2 | .failed => 3) ∧
    (hostReadCR s 1).getLsbD 2 = s.last ∧
    (hostReadCR s 1).getLsbD 3 = s.pvalid ∧
    (hostReadCR s 1).extractLsb' 4 3 = s.faultCode ∧
    (hostReadCR s 1).getLsbD 7 = false ∧
    (hostReadCR s 1).extractLsb' 8 4 = s.phase ∧
    (hostReadCR s 1).extractLsb' 12 20 = 0

/-- R21, R22, R24: what a host write does, and what a host read gives. CR1 and CR7 ignore a write; CR0
takes only bit 0, in `IDLE`, and still reads 0; CR2 takes the bits that are not reserved, the reserved
ones reading 0; CR3 to CR6 take the value. CR2 to CR7 read as the register of their number (`STATUS` is
in `StatusFields`). The premise that no START command waits is the model's (notes/assumptions/8.md). -/
def Obligations.HostWritesRegisters : Prop :=
  (∀ (s : State) (v : Word), hostWriteCR s 1 v = s ∧ hostWriteCR s 7 v = s) ∧
  (∀ (s : State) (v : Word), s.drvState = .idle → v.getLsbD 0 = true →
    hostWriteCR s 0 v = { s with startReq := true }) ∧
  (∀ (s : State) (v : Word), v.getLsbD 0 = false → hostWriteCR s 0 v = s) ∧
  (∀ s : State, hostReadCR s 0 = 0) ∧
  (∀ s : State, hostReadCR s 2 = s.mode ∧ hostReadCR s 3 = s.samplerate ∧
    hostReadCR s 4 = s.resamplerate ∧ hostReadCR s 5 = s.bandwidth ∧ hostReadCR s 6 = s.deviation ∧
    hostReadCR s 7 = s.exitStatus) ∧
  (∀ (s : State) (v : Word), s.drvState = .idle → s.startReq = false →
    hostWriteCR s 2 v = { s with mode := (hostWriteCR s 2 v).mode } ∧
    (∀ k, k < 32 → (hostWriteCR s 2 v).mode.getLsbD k =
      (v.getLsbD k && decide (k < 6 ∨ (8 ≤ k ∧ k < 14)))) ∧
    hostWriteCR s 3 v = { s with samplerate := v } ∧
    hostWriteCR s 4 v = { s with resamplerate := v } ∧
    hostWriteCR s 5 v = { s with bandwidth := v } ∧
    hostWriteCR s 6 v = { s with deviation := v })

/-- R44, R45: a host read of PR0..PR6 gives the register once `PVALID = 1`; before, it gives a free
value, and no two such reads the same one (how free values are numbered is the model's:
notes/assumptions/3.md). Nothing of the block changes. -/
def Obligations.HostReadsParameters : Prop :=
  (∀ (s : State) (n : Fin 7), s.pvalid = true →
    hostReadPR s n = ([s.pr.taps, s.pr.cutoff, s.pr.atten, s.pr.gain, s.pr.ratio, s.pr.sens,
      s.pr.center][n.val]'(by simp), s)) ∧
  (∀ (s : State) (n : Fin 7), s.pvalid = false →
    hostReadPR s n = (Config.draw32 s.draws, { s with draws := s.draws + 1 }))

/-- R80, R43: the configuration is frozen by `START`, and so are the parameters derived from it. Outside
`IDLE` a host write changes nothing at all; no step changes CR2 to CR6; no step but that of phase 1
writes the Pipeline Parameters, and none clears `PVALID`. -/
def Obligations.ConfigurationFrozen : Prop :=
  (∀ (s : State) (n : Fin 8) (v : Word), s.drvState ≠ .idle → hostWriteCR s n v = s) ∧
  (∀ s t : State, step s = .next t →
    t.mode = s.mode ∧ t.samplerate = s.samplerate ∧ t.resamplerate = s.resamplerate ∧
    t.bandwidth = s.bandwidth ∧ t.deviation = s.deviation ∧
    ((s.drvState = .running ∧ s.phase = 1) ∨ (t.pr = s.pr ∧ t.pvalid = s.pvalid)) ∧
    (s.pvalid = true → t.pvalid = true))

/-! ## Sample Decoder -/

/-- R151, for all four `DEC.t`, from every state: `NC` is the floor of `BUF_LEN / W_IN(t)`, `CBUF` holds
the decoded samples, the phase advances, and nothing else changes. -/
def Obligations.DecCompletes : Prop :=
  ∀ (t : SampleType) (s : State), exec (decOf t) s = .next { s with
    nc := s.bufLen / wIn t
    cbuf := writeArray s.cbuf (decodeSamples t (chunk s))
    phase := s.phase + 1 }

/-- R69, R91 to R94, R150 to R155: sample `k` is made of the bytes of group `k` of `BUF`, I at the lower
offsets, each component little-endian. -/
def Obligations.DecSamplesFromBytes : Prop :=
  (∀ (s : State) (k : Nat), k < s.bufLen / 2 → ∃ u, exec .decS8 s = .next u ∧
    u.cbuf[k]? = some ⟨s8map (byteAt s .buf (2 * k)).toNat, s8map (byteAt s .buf (2 * k + 1)).toNat⟩) ∧
  (∀ (s : State) (k : Nat), k < s.bufLen / 2 → ∃ u, exec .decU8 s = .next u ∧
    u.cbuf[k]? = some ⟨u8map (byteAt s .buf (2 * k)).toNat, u8map (byteAt s .buf (2 * k + 1)).toNat⟩) ∧
  (∀ (s : State) (k : Nat), k < s.bufLen / 4 → ∃ u, exec .decI16 s = .next u ∧
    u.cbuf[k]? = some
      ⟨i16map ((byteAt s .buf (4 * k)).toNat + 256 * (byteAt s .buf (4 * k + 1)).toNat),
       i16map ((byteAt s .buf (4 * k + 2)).toNat + 256 * (byteAt s .buf (4 * k + 3)).toNat)⟩) ∧
  (∀ (s : State) (k : Nat), k < s.bufLen / 8 → ∃ u, exec .decF32 s = .next u ∧
    u.cbuf[k]? = some
      ⟨byteAt s .buf (8 * k + 3) ++ byteAt s .buf (8 * k + 2) ++ byteAt s .buf (8 * k + 1) ++
         byteAt s .buf (8 * k),
       byteAt s .buf (8 * k + 7) ++ byteAt s .buf (8 * k + 6) ++ byteAt s .buf (8 * k + 5) ++
         byteAt s .buf (8 * k + 4)⟩)

/-- R158, R150, R156: the number of samples, the truncation law and the prefix law. -/
def Obligations.DecodeLaws : Prop :=
  (∀ (t : SampleType) (b : List Byte), (decodeSamples t b).length = b.length / wIn t) ∧
  (∀ (t : SampleType) (b r : List Byte), b.length % wIn t = 0 → r.length < wIn t →
    decodeSamples t (b ++ r) = decodeSamples t b) ∧
  (∀ (t : SampleType) (b c : List Byte), b.length % wIn t = 0 →
    decodeSamples t (b ++ c) = decodeSamples t b ++ decodeSamples t c)

/-- R158: for s8, u8 and i16 every component lies in [-1.0, 1.0]. -/
def Obligations.DecodedRange : Prop :=
  ∀ (t : SampleType) (b : List Byte) (x : ComplexSample), t ≠ .f32 → x ∈ decodeSamples t b →
    ∀ v ∈ [x.i, x.q], isNaN v = false ∧ fLt v fMinusOne = false ∧ fGt v fOne = false

/-- R152, R153, R121: the end points, the two middle codes, no code that decodes to zero, the relation of
the two maps, and that the results increase with the code. -/
def Obligations.EightBitDecodeMaps : Prop :=
  s8map 0x80 = 0xBF800000 ∧ s8map 0x7F = 0x3F800000 ∧ s8map 0xFF = 0xBB808080 ∧
  s8map 0x00 = 0x3B808100 ∧
  u8map 0x00 = 0xBF800000 ∧ u8map 0xFF = 0x3F800000 ∧ u8map 0x7F = 0xBB808080 ∧
  u8map 0x80 = 0x3B808100 ∧
  (∀ b, b < 256 → units (s8map b) ≠ 0) ∧
  (∀ b, b < 256 → s8map b = u8map (b ^^^ 0x80)) ∧
  (∀ b, b < 255 → fLt (u8map b) (u8map (b + 1)) = true)

/-- R154, R140 (c): a decoded i16 component is exactly `v * 2^-15` (in units of 2^-149), finite, and
never `-0`. -/
def Obligations.I16DecodeExact : Prop :=
  ∀ v, v < 65536 → isFinite (i16map v) = true ∧ units (i16map v) = sint 16 v * 2 ^ 134 ∧
    i16map v ≠ 0x80000000

/-- R155, R206, R214 (d): the f32 codec copies patterns. Decoding takes every pattern unchanged;
encoding emits unchanged every pattern that is a NaN or lies in [-1, 1]. -/
def Obligations.F32CodecCopies : Prop :=
  (∀ a b : F32, decodeSamples .f32 (leBytes 4 a.toNat ++ leBytes 4 b.toNat) = [⟨a, b⟩]) ∧
  (∀ (w : F32) (k : Nat), isNaN w = true ∨ (fLt w fMinusOne = false ∧ fGt w fOne = false) →
    ∃ b0 b1 b2 b3 : Byte, narrow .f32 k (shape false w) = [b0, b1, b2, b3] ∧ b3 ++ b2 ++ b1 ++ b0 = w)

/-! ## Numbers -/

/-- R129: the rounded magnitude is the nearest finite one, and of two equally near ones the one whose
last bit is even; it becomes infinity exactly from half a step above the largest finite value on. On
finite operands the four operations give the sign and the rounded magnitude of the exact sum, difference,
product and quotient. A product or a quotient takes its sign from the operands, a zero one too; an exact
zero sum or difference is `+0`, but `-0` where both terms are negative zeros, which is the model's reading
(notes/assumptions/26.md). -/
def Obligations.RoundingIsNearestEven : Prop :=
  (∀ num den : Nat, 0 < den →
    (roundMag num den < infMag → ∀ p, p < infMag →
      ((magUnits (roundMag num den) * den : Int) - num).natAbs ≤ ((magUnits p * den : Int) - num).natAbs ∧
      (p ≠ roundMag num den →
        ((magUnits (roundMag num den) * den : Int) - num).natAbs = ((magUnits p * den : Int) - num).natAbs →
        roundMag num den % 2 = 0)) ∧
    (roundMag num den = infMag ↔ (2 ^ 25 - 1) * 2 ^ 252 * den ≤ num)) ∧
  (∀ a b : F32, isFinite a = true → isFinite b = true →
    (fMag (fadd a b) = roundMag (units a + units b).natAbs 1 ∧
      fSign (fadd a b) = if units a + units b = 0 then fSign a && fSign b
        else decide (units a + units b < 0)) ∧
    (fMag (fsub a b) = roundMag (units a - units b).natAbs 1 ∧
      fSign (fsub a b) = if units a - units b = 0 then fSign a && !fSign b
        else decide (units a - units b < 0)) ∧
    (fMag (fmul a b) = roundMag (units a * units b).natAbs (2 ^ 149) ∧
      fSign (fmul a b) = (fSign a != fSign b)) ∧
    (units b ≠ 0 →
      fMag (fdiv a b) = roundMag ((units a).natAbs * 2 ^ 149) (units b).natAbs ∧
      fSign (fdiv a b) = (fSign a != fSign b)))

/-- R129, R130, R132: the special values. A NaN operand gives a NaN; so do `∞ - ∞`, `0 * ∞` and
`0 / 0`; `∞ + x = ∞`; `x / 0` is the infinity of `x`'s sign; `x - x = +0`. -/
def Obligations.ArithmeticSpecialValues : Prop :=
  (∀ a b : F32, isNaN a = true ∨ isNaN b = true →
    isNaN (fadd a b) = true ∧ isNaN (fsub a b) = true ∧ isNaN (fmul a b) = true ∧
    isNaN (fdiv a b) = true) ∧
  isNaN (fsub 0x7F800000 0x7F800000) = true ∧ isNaN (fmul 0x00000000 0x7F800000) = true ∧
  isNaN (fdiv 0x00000000 0x00000000) = true ∧
  (∀ x : F32, isFinite x = true →
    fadd 0x7F800000 x = 0x7F800000 ∧ fadd x 0xFF800000 = 0xFF800000 ∧ fsub x x = 0x00000000) ∧
  (∀ x : F32, isFinite x = true → fMag x ≠ 0 →
    fdiv x 0x00000000 = if fSign x then 0xFF800000 else 0x7F800000)

/-- R131, R140 (a): integer conversion is exact up to 2^24 in magnitude, and rounds above; `fmul(2.0, x)`
is exact for every finite `x` with `|x| < 2^127`. -/
def Obligations.ExactConversionAndDoubling : Prop :=
  (∀ n : Int, n.natAbs ≤ 2 ^ 24 → isFinite (i2f n) = true ∧ units (i2f n) = n * 2 ^ 149) ∧
  i2f 16777217 = i2f 16777216 ∧ i2f 4294967295 = 0x4F800000 ∧
  (∀ x : F32, fMag x < 0x7F000000 →
    isFinite (fmul fTwo x) = true ∧ units (fmul fTwo x) = 2 * units x)

/-- R138: on finite patterns the comparisons are those of the values, so the two zeros are equal; the
infinities lie beyond every finite value; the comparisons are false when either side is a NaN. -/
def Obligations.OrderIsOrderOfValues : Prop :=
  (∀ a b : F32, isFinite a = true → isFinite b = true →
    (fGt a b = true ↔ units b < units a) ∧ (fLt a b = true ↔ units a < units b)) ∧
  (∀ a : F32, isFinite a = true →
    fGt 0x7F800000 a = true ∧ fLt a 0x7F800000 = true ∧ fLt 0x7F800000 a = false ∧
    fLt 0xFF800000 a = true ∧ fGt a 0xFF800000 = true ∧ fGt 0xFF800000 a = false) ∧
  fGt 0x7F800000 0xFF800000 = true ∧ fGt 0xFF800000 0x7F800000 = false ∧
  fGt 0x7F800000 0x7F800000 = false ∧ fGt 0xFF800000 0xFF800000 = false ∧
  (∀ a b : F32, isNaN a = true ∨ isNaN b = true → fGt a b = false ∧ fLt a b = false)

/-- R136, R137: what the two shapings give, of which one is applied and never both. A NaN passes
unchanged; a value in [-1, 1] is kept bit for bit by `clamp1`, values beyond become ±1.0; `sqshape` gives
±1.0 by the sign and keeps the zeros. -/
def Obligations.ShapingResults : Prop :=
  (∀ v : F32, shape true v = sqshape v ∧ shape false v = clamp1 v) ∧
  (∀ v : F32, isNaN v = true → clamp1 v = v ∧ sqshape v = v) ∧
  (∀ v : F32, isFinite v = true → -(2 ^ 149 : Int) ≤ units v → units v ≤ 2 ^ 149 → clamp1 v = v) ∧
  (∀ v : F32, isFinite v = true → 2 ^ 149 < units v → clamp1 v = 0x3F800000) ∧
  (∀ v : F32, isFinite v = true → units v < -(2 ^ 149 : Int) → clamp1 v = 0xBF800000) ∧
  (∀ v : F32, isFinite v = true → 0 < units v → sqshape v = 0x3F800000) ∧
  (∀ v : F32, isFinite v = true → units v < 0 → sqshape v = 0xBF800000) ∧
  (∀ v : F32, isFinite v = true → units v = 0 → sqshape v = v) ∧
  clamp1 0x7F800000 = 0x3F800000 ∧ clamp1 0xFF800000 = 0xBF800000 ∧
  sqshape 0x7F800000 = 0x3F800000 ∧ sqshape 0xFF800000 = 0xBF800000

/-- R133: `round_haz` gives the integer nearest in magnitude, halves away from zero, with the sign of its
argument (that a zero result keeps the sign is the model's, notes/assumptions/24.md); infinities stay
and a NaN gives a NaN. -/
def Obligations.RoundHalfAwayFromZero : Prop :=
  (∀ x : F32, isFinite x = true → isFinite (roundHaz x) = true ∧
    units (roundHaz x) = (if fSign x then -1 else 1) * ((((units x).natAbs + 2 ^ 148) / 2 ^ 149 * 2 ^ 149 : Nat) : Int)) ∧
  (∀ x : F32, isInf x = true → roundHaz x = x) ∧
  (∀ x : F32, isNaN x = true → isNaN (roundHaz x) = true)

/-- R141, R134: the range lemma of the encoder. On a shaped sample that is no NaN every cast receives a
value inside its target range, and the i16 code -32768 is not among them; so the free value the model
keeps for a cast out of range (notes/assumptions/13.md) is never taken. -/
def Obligations.EncoderCastsInRange : Prop :=
  ∀ (v : F32) (sq : Bool), isNaN v = false →
    castOk (-128) 127
      (roundHaz (fsub (fmul f255 (fdiv (fadd (shape sq v) fOne) fTwo)) f128)) = true ∧
    castOk 0 255 (fmul f255 (fdiv (fadd (shape sq v) fOne) fTwo)) = true ∧
    castOk (-32767) 32767 (roundHaz (fmul (shape sq v) f32767)) = true

/-! ## Parameter Deriver -/

/-- R170 to R174, R176: `DERIVE`. With the three mandatory rates present and not 0, and the resample
rate absent or not 0, it writes PR0..PR6 and `PVALID` and advances; otherwise it takes `Fault(1)` and
writes nothing else. -/
def Obligations.DeriveResult : Prop :=
  ∀ s : State,
    let present := s.mode.getLsbD 10 = true ∧ s.mode.getLsbD 12 = true ∧ s.mode.getLsbD 13 = true
    let positive := s.samplerate ≠ 0 ∧ s.bandwidth ≠ 0 ∧ s.deviation ≠ 0
    let resample := s.mode.getLsbD 11 = true
    let sr := i2f s.samplerate.toNat
    let rr := i2f s.resamplerate.toNat
    let cutoff := fdiv (i2f s.bandwidth.toNat) sr
    (present ∧ positive ∧ (resample → s.resamplerate ≠ 0) →
      exec .derive s = .next { s with
        pr := { taps := 64, cutoff := cutoff, atten := 0x428C0000, gain := fmul 0x40000000 cutoff,
                ratio := if resample then fdiv rr sr else 0x3F800000,
                sens := fdiv (i2f s.deviation.toNat) (if resample then rr else sr),
                center := 0x00000000 }
        pvalid := true
        phase := s.phase + 1 }) ∧
    (¬ (present ∧ positive ∧ (resample → s.resamplerate ≠ 0)) →
      exec .derive s = .next (raiseFault 1 s))

/-- R175: on rates that are not 0 every quotient is positive, normal and in [2^-32, 2^32], the gain is
at most 2^33, and rates above 2^24 are rounded before the division. -/
def Obligations.DerivedParameterRanges : Prop :=
  (∀ a b : Word, a ≠ 0 → b ≠ 0 →
    fSign (fdiv (rateF a) (rateF b)) = false ∧
    0x2F800000 ≤ fMag (fdiv (rateF a) (rateF b)) ∧ fMag (fdiv (rateF a) (rateF b)) ≤ 0x4F800000 ∧
    fSign (fmul fTwo (fdiv (rateF a) (rateF b))) = false ∧
    0x30000000 ≤ fMag (fmul fTwo (fdiv (rateF a) (rateF b))) ∧
    fMag (fmul fTwo (fdiv (rateF a) (rateF b))) ≤ 0x50000000) ∧
  cutoffOf 16777217 16777217 = 0x3F800000

/-- R173: with a resample rate equal to the input rate, `RATIO` and `SENS` are what they are with none. -/
def Obligations.EqualRatesAreNoResampling : Prop :=
  ∀ sr dev : Word, sr ≠ 0 →
    ratioOf true sr sr = ratioOf false 0 sr ∧ ratioOf true sr sr = 0x3F800000 ∧
    sensOf true dev sr sr = sensOf false dev 0 sr

/-! ## Transform Chain -/

/-- R187: `INIT` with valid parameters and a chain that answers. Where the four calls succeed, in their
order and with the Pipeline Parameters as arguments, the chain is created and the phase advances. The
first call that fails takes `Fault(4)`; the later ones are not made and no chain is stored (R192, R260).
(The record of transactions is the model's: notes/assumptions/14.md.) -/
def Obligations.InitCreatesChain : Prop :=
  ∀ s : State, s.tcReady = true → s.pvalid = true →
    (∀ f0 f1 r0 d0, tcCreateFilter s s.pr.taps.toNat s.pr.cutoff s.pr.atten s.pr.center = some f0 →
      tcFilterSetGain s f0 s.pr.gain = some f1 →
      tcCreateResampler s s.pr.ratio s.pr.atten = some r0 →
      tcCreateFmDemodulator s s.pr.sens = some d0 →
      exec .init s = .next { s with
        tcs := some ⟨f1, r0, d0⟩
        trace := s.trace ++ [.createFilter, .filterSetGain, .createResampler, .createFmDemodulator]
        phase := s.phase + 1 }) ∧
    (tcCreateFilter s s.pr.taps.toNat s.pr.cutoff s.pr.atten s.pr.center = none →
      exec .init s = .next (raiseFault 4 { s with trace := s.trace ++ [.createFilter] })) ∧
    (∀ f0, tcCreateFilter s s.pr.taps.toNat s.pr.cutoff s.pr.atten s.pr.center = some f0 →
      tcFilterSetGain s f0 s.pr.gain = none →
      exec .init s = .next (raiseFault 4 { s with
        trace := s.trace ++ [.createFilter, .filterSetGain] })) ∧
    (∀ f0 f1, tcCreateFilter s s.pr.taps.toNat s.pr.cutoff s.pr.atten s.pr.center = some f0 →
      tcFilterSetGain s f0 s.pr.gain = some f1 →
      tcCreateResampler s s.pr.ratio s.pr.atten = none →
      exec .init s = .next (raiseFault 4 { s with
        trace := s.trace ++ [.createFilter, .filterSetGain, .createResampler] })) ∧
    (∀ f0 f1 r0, tcCreateFilter s s.pr.taps.toNat s.pr.cutoff s.pr.atten s.pr.center = some f0 →
      tcFilterSetGain s f0 s.pr.gain = some f1 →
      tcCreateResampler s s.pr.ratio s.pr.atten = some r0 →
      tcCreateFmDemodulator s s.pr.sens = none →
      exec .init s = .next (raiseFault 4 { s with
        trace := s.trace ++ [.createFilter, .filterSetGain, .createResampler, .createFmDemodulator] }))

/-- R188: `FILTER` stores the new filter state and the `NC` samples in place; a failure takes `Fault(4)`
and stores nothing of the call. (The record of transactions is the model's: notes/assumptions/14.md.) -/
def Obligations.FilterResult : Prop :=
  ∀ (s : State) (c : ChainSt), s.tcs = some c → s.tcReady = true →
    (∀ f' y, tcFilterApply s c.filt (cbufIn s) = some (f', y) → y.length = s.nc ∧
      exec .filter s = .next { s with
        tcs := some { c with filt := f' }
        cbuf := writeArray s.cbuf y
        trace := s.trace ++ [.filterApply]
        phase := s.phase + 1 }) ∧
    (tcFilterApply s c.filt (cbufIn s) = none →
      exec .filter s = .next (raiseFault 4 { s with trace := s.trace ++ [.filterApply] }))

/-- R189: `RESAMPLE` takes `M` from the call; more samples than `M_CAP`, or a failure, take `Fault(4)`
and nothing of the call is stored. (The record of transactions is the model's:
notes/assumptions/14.md.) -/
def Obligations.ResampleResult : Prop :=
  ∀ (s : State) (c : ChainSt), s.tcs = some c → s.tcReady = true →
    (∀ r' z, tcResamplerProcess s c.rs (cbufIn s) = some (r', z) → (∀ cap, s.mCap = some cap → z.length ≤ cap) →
      exec .resample s = .next { s with
        tcs := some { c with rs := r' }
        m := z.length
        rcbuf := writeArray s.rcbuf z
        trace := s.trace ++ [.resamplerProcess]
        phase := s.phase + 1 }) ∧
    (∀ r' z cap, tcResamplerProcess s c.rs (cbufIn s) = some (r', z) → s.mCap = some cap → cap < z.length →
      exec .resample s = .next (raiseFault 4 { s with trace := s.trace ++ [.resamplerProcess] })) ∧
    (tcResamplerProcess s c.rs (cbufIn s) = none →
      exec .resample s = .next (raiseFault 4 { s with trace := s.trace ++ [.resamplerProcess] }))

/-- R190: `DEMOD` stores the new demodulator state and the `M` Real Samples; a failure takes `Fault(4)`.
(The record of transactions is the model's: notes/assumptions/14.md.) -/
def Obligations.DemodResult : Prop :=
  ∀ (s : State) (c : ChainSt), s.tcs = some c → s.tcReady = true →
    (∀ d' x, tcDemodProcess s c.dm (rcbufIn s) = some (d', x) → x.length = s.m ∧
      exec .demod s = .next { s with
        tcs := some { c with dm := d' }
        rbuf := writeArray s.rbuf x
        trace := s.trace ++ [.demodProcess]
        phase := s.phase + 1 }) ∧
    (tcDemodProcess s c.dm (rcbufIn s) = none →
      exec .demod s = .next (raiseFault 4 { s with trace := s.trace ++ [.demodProcess] }))

/-- R191, R188, R190: the filter and the demodulator keep the length, so that after `FILTER` the `NC`
samples read are those returned, and after `DEMOD` the `M` samples read are those returned. R48, R186:
the chain is one chain for a run: no step changes what is stated of it or `M_CAP`, and outside `IDLE` no
host move does (that the statements stand in State is the model's: notes/assumptions/4.md, 28.md). -/
def Obligations.ChainKeepsLengths : Prop :=
  (∀ (s : State) (f f' : FiltSt) (x y : List ComplexSample),
    tcFilterApply s f x = some (f', y) → y.length = x.length) ∧
  (∀ (s : State) (d d' : DmSt) (x : List ComplexSample) (y : List F32),
    tcDemodProcess s d x = some (d', y) → y.length = x.length) ∧
  (∀ (s t : State) (c : ChainSt) (f' : FiltSt) (y : List ComplexSample), s.tcs = some c →
    s.tcReady = true → tcFilterApply s c.filt (cbufIn s) = some (f', y) → exec .filter s = .next t →
    t.nc = s.nc ∧ cbufIn t = y) ∧
  (∀ (s t : State) (c : ChainSt) (d' : DmSt) (y : List F32), s.tcs = some c →
    s.tcReady = true → tcDemodProcess s c.dm (rcbufIn s) = some (d', y) → exec .demod s = .next t →
    t.m = s.m ∧ rbufIn t = y) ∧
  (∀ s t : State, step s = .next t → t.tcFacts = s.tcFacts ∧ t.mCap = s.mCap) ∧
  (∀ (s : State) (f : TcFacts), s.drvState ≠ .idle → stateTc f s = s)

/-- R230, R269 (the wait, notes/assumptions/6.md and 23.md) and R46 (no chain, notes/assumptions/10.md):
an operation whose port has no answer ready leaves every state as it is; a stage met with no chain
stops. -/
def Obligations.WaitsAndMissingChain : Prop :=
  (∀ s : State, s.srcReplies = [] → exec .read s = .next s) ∧
  (∀ s : State, s.snkReplies = [] → exec .write s = .next s ∧ exec .flush s = .next s) ∧
  (∀ s : State, s.tcReady = false → exec .init s = .next s) ∧
  (∀ s : State, s.tcReady = false → s.tcs ≠ none →
    exec .filter s = .next s ∧ exec .resample s = .next s ∧ exec .demod s = .next s) ∧
  (∀ s : State, s.tcs = none → exec .filter s = .fault .chainAbsent ∧
    exec .resample s = .fault .chainAbsent ∧ exec .demod s = .fault .chainAbsent)

/-! ## Sample Encoder -/

/-- R201, R123, for all eight `ENC` operations, from every state: `OB_LEN = M * W_OUT(t)`, `OBUF` holds
the encoded bytes from 0 on, the phase advances, and nothing else changes but the model's counter of
free values (notes/assumptions/3.md). -/
def Obligations.EncCompletes : Prop :=
  ∀ (t : SampleType) (sq : Bool) (s : State), exec (encOf t sq) s = .next { s with
    obLen := s.m * wOut t
    obuf := Memory.write s.obuf 0 (encodeSamples t sq s.draws (rbufIn s))
    draws := s.draws + s.m
    phase := s.phase + 1 }

/-- R200, R201, R213: sample `k` of `RBUF`, shaped and narrowed by itself, occupies the bytes
`k * W_OUT(t)` on of `OBUF`. (That a NaN sample takes the free value numbered `draws + k` is the model's
numbering: notes/assumptions/3.md.) -/
def Obligations.EncBytesPlaced : Prop :=
  ∀ (t : SampleType) (sq : Bool) (s : State), ∃ u, exec (encOf t sq) s = .next u ∧
    ∀ (k : Nat) (x : F32), (rbufIn s)[k]? = some x → ∀ j, j < wOut t →
      (narrow t (s.draws + k) (shape sq x))[j]? = some (byteAt u .obuf (k * wOut t + j))

/-- R212: the clamping law, in both shaping modes: every sample not below 1.0 (the infinity included)
and every sample not above -1.0. -/
def Obligations.ClampingLaw : Prop :=
  ∀ (v : F32) (sq : Bool) (k : Nat), isNaN v = false →
    (fLt v fOne = false →
      narrow .s8 k (shape sq v) = [0x7F] ∧ narrow .u8 k (shape sq v) = [0xFF] ∧
      narrow .i16 k (shape sq v) = [0xFF, 0x7F] ∧
      narrow .f32 k (shape sq v) = [0x00, 0x00, 0x80, 0x3F]) ∧
    (fGt v fMinusOne = false →
      narrow .s8 k (shape sq v) = [0x80] ∧ narrow .u8 k (shape sq v) = [0x00] ∧
      narrow .i16 k (shape sq v) = [0x01, 0x80] ∧
      narrow .f32 k (shape sq v) = [0x00, 0x00, 0x80, 0xBF])

/-- R207 to R210: the outcomes of the `.SQ` operations on a sample above zero, below zero, and on the
two zeros. -/
def Obligations.SquareWaveLaw : Prop :=
  (∀ (v : F32) (k : Nat), fGt v fZero = true →
    narrow .s8 k (shape true v) = [0x7F] ∧ narrow .u8 k (shape true v) = [0xFF] ∧
    narrow .i16 k (shape true v) = [0xFF, 0x7F] ∧
    narrow .f32 k (shape true v) = [0x00, 0x00, 0x80, 0x3F]) ∧
  (∀ (v : F32) (k : Nat), fLt v fZero = true →
    narrow .s8 k (shape true v) = [0x80] ∧ narrow .u8 k (shape true v) = [0x00] ∧
    narrow .i16 k (shape true v) = [0x01, 0x80] ∧
    narrow .f32 k (shape true v) = [0x00, 0x00, 0x80, 0xBF]) ∧
  (∀ (v : F32) (k : Nat), fMag v = 0 →
    narrow .s8 k (shape true v) = [0xFF] ∧ narrow .u8 k (shape true v) = [0x7F] ∧
    narrow .i16 k (shape true v) = [0x00, 0x00] ∧
    narrow .f32 k (shape true v) = [0x00, 0x00, 0x00, if fSign v then 0x80 else 0x00])

/-- R211, R135: a NaN sample. Shaping keeps it; on an integer path its code is the free value of its
place in the buffer, on the f32 path its own pattern; the other samples and the length are not
affected. (How free values are numbered is the model's: notes/assumptions/3.md.) -/
def Obligations.NanSamples : Prop :=
  (∀ (v : F32) (sq : Bool) (k : Nat), isNaN v = true →
    shape sq v = v ∧
    narrow .s8 k (shape sq v) = [Config.draw8 k] ∧ narrow .u8 k (shape sq v) = [Config.draw8 k] ∧
    narrow .i16 k (shape sq v) =
      [(Config.draw16 k).extractLsb' 0 8, (Config.draw16 k).extractLsb' 8 8] ∧
    narrow .f32 k (shape sq v) = [v.extractLsb' 0 8, v.extractLsb' 8 8, v.extractLsb' 16 8,
      v.extractLsb' 24 8]) ∧
  (∀ (t : SampleType) (sq : Bool) (k : Nat) (x y : List F32) (v : F32),
    encodeSamples t sq k (x ++ v :: y) =
      encodeSamples t sq k x ++ narrow t (k + x.length) (shape sq v) ++
        encodeSamples t sq (k + x.length + 1) y)

/-- R214 (a), (b): the 8-bit round trips through the block's own codec, for all codes. -/
def Obligations.EightBitRoundTrips : Prop :=
  ∀ (b : Byte) (k : Nat),
    narrow .s8 k (shape false (s8map b.toNat)) = [b] ∧
    narrow .u8 k (shape false (u8map b.toNat)) = [if 1 ≤ b.toNat ∧ b.toNat ≤ 63 then b - 1 else b]

/-- R214 (c): an i16 code comes back through the block's own codec exactly where it lies in
-16416..16416. -/
def Obligations.I16RoundTrip : Prop :=
  ∀ (v : BitVec 16) (k : Nat),
    narrow .i16 k (shape false (i16map v.toNat)) = [v.extractLsb' 0 8, v.extractLsb' 8 8] ↔
      -16416 ≤ v.toInt ∧ v.toInt ≤ 16416

/-! ## Streaming Driver -/

/-- R226: `START`. With every required option present and valid the run begins at phase 1; otherwise
`Fault(1)` is taken and no port but `ERR` is touched. -/
def Obligations.StartResult : Prop :=
  ∀ s : State,
    let ok := (s.mode.getLsbD 10 = true ∧ s.samplerate ≠ 0) ∧ s.mode.getLsbD 8 = true ∧
      s.mode.getLsbD 9 = true ∧ (s.mode.getLsbD 12 = true ∧ s.bandwidth ≠ 0) ∧
      s.mode.getLsbD 5 = true ∧ (s.mode.getLsbD 13 = true ∧ s.deviation ≠ 0) ∧
      (s.mode.getLsbD 11 = false ∨ s.resamplerate ≠ 0)
    (ok → exec .start s = .next { s with drvState := .running, phase := 1 }) ∧
    (¬ ok → exec .start s = .next (raiseFault 1 s))

/-- R228, R229, R63: a read answered `ok`. The bytes delivered, at most 8192 and taken from the front of
the unread input, stand in `BUF` from 0 on; the bytes beyond are as before; `LAST` says whether fewer
than 8192 came. (What the answer `ok n` stands for and the record of transactions are the model's:
notes/assumptions/7.md, 14.md.) -/
def Obligations.ReadStoresChunk : Prop :=
  ∀ (s : State) (n : Nat) (rest : List SrcReply), s.srcReplies = .ok n :: rest →
    ∃ t d, exec .read s = .next t ∧
      d = s.inRest.take (min n 8192) ∧ s.inRest = d ++ t.inRest ∧
      t.bufLen = d.length ∧ t.bufLen ≤ 8192 ∧
      (t.last = true ↔ t.bufLen < 8192) ∧ t.phase = s.phase + 1 ∧ chunk t = d ∧
      (∀ a, t.bufLen ≤ a → byteAt t .buf a = byteAt s .buf a) ∧
      t = { s with
        buf := t.buf, bufLen := t.bufLen, last := t.last, phase := t.phase, inRest := t.inRest,
        srcReplies := rest, trace := s.trace ++ [.srcRead 8192] }

/-- R252: a failed read takes `Fault(2)` and stores nothing; how much of the input it consumed is open.
A short read and an empty one are no failures. (The record of transactions is the model's:
notes/assumptions/14.md.) -/
def Obligations.ReadFailure : Prop :=
  (∀ (s : State) (n : Nat) (rest : List SrcReply), s.srcReplies = .ok n :: rest →
    ∃ t, exec .read s = .next t ∧ t.faultCode = s.faultCode ∧ t.drvState = s.drvState) ∧
  ∀ (s : State) (rest : List SrcReply), s.srcReplies = .err :: rest →
    ∃ t n, exec .read s = .next t ∧ t.inRest = s.inRest.drop n ∧
      t = { s with
        faultCode := 2, drvState := .failed, exitStatus := t.exitStatus, inRest := t.inRest,
        srcReplies := rest, trace := s.trace ++ [.srcRead 8192, .errReport], draws := t.draws } ∧
      t.exitStatus ≠ 0

/-- R233, R64: a write answered `ok` appends all `OB_LEN` bytes of `OBUF`, in order; one answered `err`
takes `Fault(3)` and has appended some prefix of them. (The record of transactions is the model's:
notes/assumptions/14.md.) -/
def Obligations.WriteResult : Prop :=
  (∀ (s : State) (rest : List SnkReply), s.snkReplies = .ok :: rest →
    exec .write s = .next { s with
      outAcc := s.outAcc ++ (List.range s.obLen).map (byteAt s .obuf)
      snkReplies := rest
      trace := s.trace ++ [.snkWrite s.obLen]
      phase := s.phase + 1 }) ∧
  (∀ (s : State) (rest : List SnkReply), s.snkReplies = .err :: rest →
    ∃ t p, exec .write s = .next t ∧ p <+: (List.range s.obLen).map (byteAt s .obuf) ∧
      t = { s with
        outAcc := s.outAcc ++ p, faultCode := 3, drvState := .failed, exitStatus := t.exitStatus,
        snkReplies := rest, trace := s.trace ++ [.snkWrite s.obLen, .errReport], draws := t.draws } ∧
      t.exitStatus ≠ 0)

/-- R235, R65, R79: a flush answered `ok` makes every accepted byte visible and advances; one answered
`err` takes `Fault(3)`. (How the model keeps visibility and the record of transactions:
notes/assumptions/14.md, 16.md.) -/
def Obligations.FlushResult : Prop :=
  (∀ (s : State) (rest : List SnkReply), s.snkReplies = .ok :: rest →
    exec .flush s = .next { s with
      flushed := s.outAcc.length, snkReplies := rest, trace := s.trace ++ [.snkFlush],
      phase := s.phase + 1 }) ∧
  (∀ (s : State) (rest : List SnkReply), s.snkReplies = .err :: rest →
    exec .flush s = .next (raiseFault 3 { s with
      snkReplies := rest, trace := s.trace ++ [.snkFlush] }))

/-- R238: `NEXT`; `STOPPED` is terminal, the sequencer issues nothing there. -/
def Obligations.NextResult : Prop :=
  (∀ s : State, s.drvState = .stopped → issue s = .wait) ∧
  (∀ s : State, s.last = false → exec .next s = .next { s with phase := 3 }) ∧
  (∀ s : State, s.last = true → exec .next s = .next { s with drvState := .stopped, exitStatus := 0 })

/-! ## Faults -/

/-- R261, steps (2) to (5), for the shared operation `raiseFault`: what it writes; everything not named,
`PHASE` among it, is kept, and the sequencer issues nothing more. (That an operation's own writes are
abandoned, step (1), is in the operations' statements. The record of the report is the model's:
notes/assumptions/14.md. The exit status is R261's `EXIT_FAIL`, which R29 asks claims about a run to use
only as not 0.) -/
def Obligations.FaultEntry : Prop :=
  ∀ (c : BitVec 3) (s : State), raiseFault c s = { s with
    faultCode := c, drvState := .failed, exitStatus := 1, trace := s.trace ++ [.errReport] } ∧
    issue (raiseFault c s) = .wait

/-- R250, R255, R239: an operation that ends a run raises a code of its own class and keeps `PHASE`, with
a non-zero exit status; so `DEC`, `ENC` and `NEXT` never end a run in `FAILED`. -/
def Obligations.FaultsByOperation : Prop :=
  ∀ (i : Instr) (s t : State), s.drvState ≠ .failed → exec i s = .next t → t.drvState = .failed →
    t.faultCode ∈ faultCodesOf i ∧ t.phase = s.phase ∧ t.exitStatus ≠ 0

/-! ## Frames (R51) -/

/-- R51, R151, R201: the codec operations change nothing but what they write. `DEC.t`: `CBUF` below the
new `NC`, `NC`, `PHASE`, and no byte of memory. `ENC`: the bytes of `OBUF` below the new `OB_LEN`,
`OB_LEN`, `PHASE`, and the model's counter of free values (notes/assumptions/3.md). -/
def Obligations.CodecFrame : Prop :=
  (∀ (t : SampleType) (s u : State), exec (decOf t) s = .next u →
    u = { s with cbuf := u.cbuf, nc := u.nc, phase := u.phase } ∧
    (∀ k, u.nc ≤ k → u.cbuf[k]? = s.cbuf[k]?) ∧
    (∀ sp a, byteAt u sp a = byteAt s sp a)) ∧
  (∀ (t : SampleType) (sq : Bool) (s u : State), exec (encOf t sq) s = .next u →
    u = { s with obuf := u.obuf, obLen := u.obLen, phase := u.phase, draws := u.draws } ∧
    (∀ a, byteAt u .buf a = byteAt s .buf a) ∧
    (∀ a, u.obLen ≤ a → byteAt u .obuf a = byteAt s .obuf a))

/-- R51: the frame of the other operations, on every path that gives a next state (the effect, the fault
entry and the wait). Only `READ` writes a byte of memory, in `BUF` below the new `BUF_LEN`. `FILTER`,
`RESAMPLE` and `DEMOD` write their own part of `TCS` (R46) and the elements of their sample array below
`NC`, the new `M`, and `M`. The port answers consumed, the record of transactions and the counter of free values are the environment's and
the model's own (notes/assumptions/3.md, 6.md, 14.md). -/
def Obligations.PortFrame : Prop :=
  (∀ s u : State, exec .start s = .next u → u = { s with
    drvState := u.drvState, phase := u.phase, faultCode := u.faultCode, exitStatus := u.exitStatus,
    trace := u.trace }) ∧
  (∀ s u : State, exec .derive s = .next u → u = { s with
    pr := u.pr, pvalid := u.pvalid, phase := u.phase, drvState := u.drvState,
    faultCode := u.faultCode, exitStatus := u.exitStatus, trace := u.trace }) ∧
  (∀ s u : State, exec .init s = .next u → u = { s with
    tcs := u.tcs, phase := u.phase, drvState := u.drvState, faultCode := u.faultCode,
    exitStatus := u.exitStatus, trace := u.trace, draws := u.draws }) ∧
  (∀ s u : State, exec .filter s = .next u → u = { s with
    cbuf := u.cbuf, tcs := u.tcs, phase := u.phase, drvState := u.drvState,
    faultCode := u.faultCode, exitStatus := u.exitStatus, trace := u.trace } ∧
    u.tcs.map (fun c => (c.rs, c.dm)) = s.tcs.map (fun c => (c.rs, c.dm)) ∧
    (∀ k, s.nc ≤ k → u.cbuf[k]? = s.cbuf[k]?)) ∧
  (∀ s u : State, exec .resample s = .next u → u = { s with
    rcbuf := u.rcbuf, m := u.m, tcs := u.tcs, phase := u.phase, drvState := u.drvState,
    faultCode := u.faultCode, exitStatus := u.exitStatus, trace := u.trace } ∧
    u.tcs.map (fun c => (c.filt, c.dm)) = s.tcs.map (fun c => (c.filt, c.dm)) ∧
    (∀ k, u.m ≤ k → u.rcbuf[k]? = s.rcbuf[k]?)) ∧
  (∀ s u : State, exec .demod s = .next u → u = { s with
    rbuf := u.rbuf, tcs := u.tcs, phase := u.phase, drvState := u.drvState,
    faultCode := u.faultCode, exitStatus := u.exitStatus, trace := u.trace } ∧
    u.tcs.map (fun c => (c.filt, c.rs)) = s.tcs.map (fun c => (c.filt, c.rs)) ∧
    (∀ k, s.m ≤ k → u.rbuf[k]? = s.rbuf[k]?)) ∧
  (∀ s u : State, exec .read s = .next u → u = { s with
    buf := u.buf, bufLen := u.bufLen, last := u.last, phase := u.phase, inRest := u.inRest,
    srcReplies := u.srcReplies, drvState := u.drvState, faultCode := u.faultCode,
    exitStatus := u.exitStatus, trace := u.trace, draws := u.draws } ∧
    (∀ a, u.bufLen ≤ a → byteAt u .buf a = byteAt s .buf a)) ∧
  (∀ s u : State, exec .write s = .next u → u = { s with
    outAcc := u.outAcc, snkReplies := u.snkReplies, phase := u.phase, drvState := u.drvState,
    faultCode := u.faultCode, exitStatus := u.exitStatus, trace := u.trace, draws := u.draws }) ∧
  (∀ s u : State, exec .flush s = .next u → u = { s with
    flushed := u.flushed, snkReplies := u.snkReplies, phase := u.phase, drvState := u.drvState,
    faultCode := u.faultCode, exitStatus := u.exitStatus, trace := u.trace }) ∧
  (∀ s u : State, exec .next s = .next u → u = { s with
    phase := u.phase, drvState := u.drvState, exitStatus := u.exitStatus }) ∧
  (∀ (i : Instr) (s u : State), i ∈ [Instr.start, .derive, .init, .filter, .resample, .demod, .write,
    .flush, .next] → exec i s = .next u → ∀ sp a, byteAt u sp a = byteAt s sp a)

/-! ## Invariants and whole runs -/

/-- The invariants hold at reset (R49, R52). -/
def Obligations.InvariantsAtReset : Prop :=
  State.reset.Inv ∧ State.reset.TraceInv

/-- R52 with R24, R30, R31, R41: from every state that meets the invariants, whether or not a run
reaches it, a step gives a state that meets them. -/
def Obligations.InvariantsKeptByStep : Prop :=
  ∀ s t : State, s.Inv → step s = .next t → t.Inv

/-- R52 with R21 to R24, R280: every move of the host keeps the invariants (which moves there are beside
R267's table is the model's: notes/assumptions/28.md). -/
def Obligations.InvariantsKeptByHost : Prop :=
  ∀ s : State, s.Inv →
    (∀ n v, (hostWriteCR s n v).Inv) ∧ (∀ n, (hostReadPR s n).2.Inv) ∧ (hostReset s).Inv ∧
    (∀ input, (hostConnect input s).Inv) ∧ (∀ more, (supplySrc more s).Inv) ∧
    (∀ r, (answerSrc r s).Inv) ∧ (∀ r, (answerSnk r s).Inv) ∧ (∀ f, (stateTc f s).Inv) ∧
    (∀ ready, (holdTc ready s).Inv) ∧ (∀ line, (assemble line s).Inv)

/-- R77 with R264: from every state that meets the invariants and whose record of port transactions
follows the order of R77, a step gives such a state: no transaction is skipped, repeated, reordered or
added, and a failed run ends in exactly one report. (The record itself is the model's:
notes/assumptions/14.md.) -/
def Obligations.PortOrderKeptByStep : Prop :=
  ∀ s t : State, s.Inv → s.TraceInv → step s = .next t → t.TraceInv

/-- In a state that meets the invariants no step stops the machine: the fault and the refusals are for
situations no run reaches (R46, R105, R107). -/
def Obligations.NoStopFromInvariant : Prop :=
  ∀ s : State, s.Inv → ∃ t, step s = .next t

/-- R225, R231, R238, R240: one whole iteration. From phase 3, with the ports answering and the chain
succeeding, nine steps read a chunk, decode it, hand it through the chain, encode what comes back,
append exactly those bytes to the output and flush them, and then go on or stop by the length read. (What
an answer delivers, how visibility is kept, and which free value a NaN sample takes, numbered from `draws`
on, are the model's: notes/assumptions/7.md, 16.md, 3.md.) -/
def Obligations.OneIteration : Prop :=
  ∀ (s : State) (c : ChainSt) (n : Nat) (rs : List SrcReply) (ks : List SnkReply) (f' : FiltSt)
    (r' : RsSt) (d' : DmSt) (y z : List ComplexSample) (x : List F32),
    s.drvState = .running → s.phase = 3 → s.tcReady = true → s.tcs = some c →
    s.srcReplies = .ok n :: rs → s.snkReplies = .ok :: .ok :: ks →
    tcFilterApply s c.filt (decodeSamples (modeIntype s.mode) (delivered s n)) = some (f', y) →
    tcResamplerProcess s c.rs y = some (r', z) → fitsCap s.mCap z.length = true →
    tcDemodProcess s c.dm z = some (d', x) →
    ∃ u, runSteps 9 s = .next u ∧
      u.outAcc = s.outAcc ++ encodeSamples (modeOuttype s.mode) (modeSq s.mode) s.draws x ∧
      u.flushed = u.outAcc.length ∧ s.inRest = delivered s n ++ u.inRest ∧
      u.tcs = some ⟨f', r', d'⟩ ∧ u.srcReplies = rs ∧ u.snkReplies = ks ∧
      (if (delivered s n).length < 8192 then u.drvState = .stopped ∧ u.exitStatus = 0 ∧ u.phase = 11
       else u.drvState = .running ∧ u.phase = 3)
end

