-- ==== Sys2Proof/Laws/Codec.lean ====
section
/-! SUPPORT. Lengths of groups and codes, and how groups and encodings split. -/

namespace Sys2Proof.Machine

theorem leBytes_length (n v : Nat) : (leBytes n v).length = n := by
  induction n generalizing v with
  | zero => rfl
  | succ n ih => simp [leBytes, ih]

theorem groups_length (w n : Nat) (b : List Byte) : (groups w n b).length = n := by
  induction n generalizing b with
  | zero => rfl
  | succ n ih => simp [groups, ih]

/-- Group `k` is the `w` bytes from `k * w` on (R69). -/
theorem groups_getElem? (w n : Nat) (b : List Byte) (k : Nat) (h : k < n) :
    (groups w n b)[k]? = some ((b.drop (k * w)).take w) := by
  induction n generalizing b k with
  | zero => omega
  | succ n ih =>
    cases k with
    | zero => simp [groups]
    | succ k =>
      rw [groups, List.getElem?_cons_succ, ih _ _ (by omega), List.drop_drop, Nat.succ_mul,
        Nat.add_comm]

theorem wIn_pos (t : SampleType) : 0 < wIn t := by cases t <;> decide

theorem wOut_pos (t : SampleType) : 0 < wOut t := by cases t <;> decide

theorem narrow_length (t : SampleType) (k : Nat) (v : F32) : (narrow t k v).length = wOut t := by
  cases t <;> exact leBytes_length _ _

theorem encodeSamples_length (t : SampleType) (sq : Bool) (k : Nat) (x : List F32) :
    (encodeSamples t sq k x).length = x.length * wOut t := by
  induction x generalizing k with
  | nil => simp [encodeSamples]
  | cons v x ih =>
    rw [encodeSamples, List.length_append, narrow_length, ih, List.length_cons, Nat.succ_mul,
      Nat.add_comm]

/-- Samples are encoded one by one (R213); the free values go on counting. -/
theorem encodeSamples_append (t : SampleType) (sq : Bool) (k : Nat) (x y : List F32) :
    encodeSamples t sq k (x ++ y) =
      encodeSamples t sq k x ++ encodeSamples t sq (k + x.length) y := by
  induction x generalizing k with
  | nil => rfl
  | cons v x ih =>
    have hk : k + 1 + x.length = k + (x.length + 1) := by omega
    rw [List.cons_append, encodeSamples, ih, encodeSamples, List.append_assoc, List.length_cons, hk]

end Sys2Proof.Machine
end

