-- ==== Sys2Proof/Laws/Memory.lean ====
section
/-! SUPPORT. The laws of the byte memories and the sample arrays: a read after a write, what a write
leaves alone, and the canonical form every write keeps. -/

namespace Sys2Proof.Machine

theorem lookup_append (a : Nat) (l r : Memory) :
    List.lookup a (l ++ r) = (List.lookup a l).or (List.lookup a r) := by
  induction l with
  | nil => simp
  | cons c l ih =>
    obtain ⟨k, b⟩ := c
    by_cases h : a = k
    · subst h; simp
    · simp [List.lookup_cons, beq_false_of_ne h, ih]

theorem lookup_filter_keep (a : Nat) (p : Host.Cell → Bool) (m : Memory)
    (h : ∀ b, p (a, b) = true) : List.lookup a (m.filter p) = List.lookup a m := by
  induction m with
  | nil => rfl
  | cons c m ih =>
    obtain ⟨k, b⟩ := c
    by_cases hk : a = k
    · subst hk; simp [h]
    · cases hp : p (k, b) <;> simp [hp, List.lookup_cons, beq_false_of_ne hk, ih]

theorem lookup_filter_drop (a : Nat) (p : Host.Cell → Bool) (m : Memory)
    (h : ∀ b, p (a, b) = false) : List.lookup a (m.filter p) = none := by
  induction m with
  | nil => rfl
  | cons c m ih =>
    obtain ⟨k, b⟩ := c
    by_cases hk : a = k
    · subst hk; simp [h, ih]
    · cases hp : p (k, b) <;> simp [hp, List.lookup_cons, beq_false_of_ne hk, ih]

/-- Which cells `Memory.cells` lists. -/
theorem lookup_cells (d : List Byte) (a x : Nat) :
    List.lookup x (Memory.cells a d) = if a ≤ x then d[x - a]? else none := by
  induction d generalizing a with
  | nil => simp [Memory.cells]
  | cons b d ih =>
    by_cases h : x = a
    · subst h; simp [Memory.cells]
    · simp only [Memory.cells, List.lookup_cons, beq_false_of_ne h, ih]
      by_cases h1 : a + 1 ≤ x
      · have h2 : a ≤ x := by omega
        have h3 : x - a = (x - (a + 1)) + 1 := by omega
        simp [h1, h2, h3]
      · have h2 : ¬ a ≤ x := by omega
        simp [h1, h2]

/-- What a write leaves at each address. -/
theorem lookup_write (m : Memory) (a : Nat) (d : List Byte) (x : Nat) :
    List.lookup x (Memory.write m a d) =
      if a ≤ x ∧ x < a + d.length then d[x - a]? else List.lookup x m := by
  simp only [Memory.write, lookup_append, lookup_cells]
  by_cases h1 : a ≤ x
  · rw [lookup_filter_drop x _ m (by intro b; simpa using h1)]
    by_cases h2 : x < a + d.length
    · have h3 : x - a < d.length := by omega
      simp [h1, h2, List.getElem?_eq_getElem h3]
    · rw [lookup_filter_keep x _ m (by intro b; simp; omega)]
      have h3 : d[x - a]? = none := by simp; omega
      simp [h1, h2, h3]
  · rw [lookup_filter_keep x _ m (by intro b; simp; omega)]
    rw [lookup_filter_drop x _ m (by intro b; simp; omega)]
    simp [h1]

/-- A byte inside the stored range reads as stored. -/
theorem read_write_inside (sp : ByteSpace) (m : Memory) (a : Nat) (d : List Byte) (j : Nat)
    (h : j < d.length) : Memory.read sp (Memory.write m a d) (a + j) = d[j] := by
  simp [Memory.read, lookup_write, h]

/-- A byte outside the stored range reads as before. -/
theorem read_write_outside (sp : ByteSpace) (m : Memory) (a : Nat) (d : List Byte) (x : Nat)
    (h : x < a ∨ a + d.length ≤ x) :
    Memory.read sp (Memory.write m a d) x = Memory.read sp m x := by
  have : ¬ (a ≤ x ∧ x < a + d.length) := by omega
  simp [Memory.read, lookup_write, this]

theorem cells_range (d : List Byte) (a : Nat) (c : Host.Cell) (h : c ∈ Memory.cells a d) :
    a ≤ c.1 ∧ c.1 < a + d.length := by
  induction d generalizing a with
  | nil => simp [Memory.cells] at h
  | cons b d ih =>
    simp only [Memory.cells, List.mem_cons] at h
    rcases h with h | h
    · subst h; simp
    · have := ih (a + 1) h
      simp only [List.length_cons]; omega

theorem cells_wf (d : List Byte) (a : Nat) : Memory.wf (Memory.cells a d) := by
  induction d generalizing a with
  | nil => exact List.Pairwise.nil
  | cons b d ih =>
    refine List.Pairwise.cons (fun c hc => ?_) (ih (a + 1))
    have := cells_range d (a + 1) c hc
    change a < c.1
    omega

/-- Every write keeps the canonical form. -/
theorem write_wf (m : Memory) (a : Nat) (d : List Byte) (h : Memory.wf m) :
    Memory.wf (Memory.write m a d) := by
  refine List.pairwise_append.2 ⟨List.pairwise_append.2 ⟨?_, cells_wf d a, ?_⟩, ?_, ?_⟩
  · exact h.sublist List.filter_sublist
  · intro c hc e he
    have h1 : c.1 < a := by simpa using (List.mem_filter.1 hc).2
    have h2 := cells_range d a e he
    omega
  · exact h.sublist List.filter_sublist
  · intro c hc e he
    have h1 : a + d.length ≤ e.1 := by simpa using (List.mem_filter.1 he).2
    rcases List.mem_append.1 hc with hc | hc
    · have h2 : c.1 < a := by simpa using (List.mem_filter.1 hc).2
      omega
    · have h2 := cells_range d a c hc
      omega

theorem reset_buf_wf : Memory.wf State.reset.buf ∧ Memory.wf State.reset.obuf :=
  ⟨List.Pairwise.nil, List.Pairwise.nil⟩

/-- Which cells a written memory lists. -/
theorem mem_write (m : Memory) (a : Nat) (d : List Byte) (c : Host.Cell)
    (h : c ∈ Memory.write m a d) : c ∈ m ∨ (a ≤ c.1 ∧ c.1 < a + d.length) := by
  simp only [Memory.write, List.mem_append] at h
  rcases h with (h | h) | h
  · exact .inl (List.mem_filter.1 h).1
  · exact .inr (cells_range d a c h)
  · exact .inl (List.mem_filter.1 h).1

theorem lookup_dropWhile (m : Memory) (a x : Nat) (h : a < x) :
    List.lookup x (m.dropWhile (fun c => decide (c.1 ≤ a))) = List.lookup x m := by
  induction m with
  | nil => rfl
  | cons c m ih =>
    obtain ⟨k, b⟩ := c
    by_cases hk : k ≤ a
    · have : x ≠ k := by omega
      simp [hk, List.lookup_cons, beq_false_of_ne this, ih]
    · simp [hk]

/-- Reading a run of bytes is reading each of them. -/
theorem reads_eq_map (sp : ByteSpace) (m : Memory) (a n : Nat) :
    Memory.reads sp m a n = (List.range' a n).map (Memory.read sp m) := by
  induction n generalizing m a with
  | zero => rfl
  | succ n ih =>
    simp only [Memory.reads, ih, List.range'_succ, List.map_cons, List.cons.injEq, true_and]
    refine List.map_congr_left (fun x hx => ?_)
    have : a < x := by simp at hx; omega
    simp [Memory.read, lookup_dropWhile m a x this]

@[simp] theorem reads_length (sp : ByteSpace) (m : Memory) (a n : Nat) :
    (Memory.reads sp m a n).length = n := by
  simp [reads_eq_map]

theorem reads_getElem (sp : ByteSpace) (m : Memory) (a n j : Nat) (h : j < n) :
    (Memory.reads sp m a n)[j]? = some (Memory.read sp m (a + j)) := by
  simp [reads_eq_map, h]

/-- What has been stored is read back. -/
theorem reads_write (sp : ByteSpace) (m : Memory) (a : Nat) (d : List Byte) :
    Memory.reads sp (Memory.write m a d) a d.length = d := by
  refine List.ext_getElem? (fun j => ?_)
  by_cases h : j < d.length
  · rw [reads_getElem _ _ _ _ _ h, read_write_inside _ _ _ _ _ h, List.getElem?_eq_getElem h]
  · have h1 : (Memory.reads sp (Memory.write m a d) a d.length)[j]? = none := by simp; omega
    have h2 : d[j]? = none := by simp; omega
    rw [h1, h2]

@[simp] theorem readArray_length {α : Type} (free : Nat → α) (l : List α) (n : Nat) :
    (readArray free l n).length = n := by
  simp [readArray]; omega

/-- Where enough elements have been written, a read takes them and no free value. -/
theorem readArray_of_le {α : Type} (free : Nat → α) (l : List α) (n : Nat) (h : n ≤ l.length) :
    readArray free l n = l.take n := by
  have : n - l.length = 0 := by omega
  simp [readArray, this]

theorem writeArray_length {α : Type} (l y : List α) :
    (writeArray l y).length = max y.length l.length := by
  simp [writeArray]; omega

/-- What has been stored in an array is read back. -/
theorem readArray_writeArray {α : Type} (free : Nat → α) (l y : List α) :
    readArray free (writeArray l y) y.length = y := by
  rw [readArray_of_le _ _ _ (by rw [writeArray_length]; omega)]
  simp [writeArray]

/-- The elements beyond what is stored are kept. -/
theorem writeArray_beyond {α : Type} (l y : List α) (k : Nat) (h : y.length ≤ k) :
    (writeArray l y)[k]? = l[k]? := by
  simp only [writeArray, List.getElem?_append_right h, List.getElem?_drop]
  congr 1
  omega

end Sys2Proof.Machine
end

