-- ==== Sys2Proof/Laws/Numerics.lean ====
section
/-! SUPPORT. Sign, magnitude and class of what the binary32 operations put together. -/

namespace Sys2Proof.Machine

theorem fMag_lt (w : F32) : fMag w < 2 ^ 31 := Nat.mod_lt _ (by decide)

theorem fMag_pack (neg : Bool) (p : Nat) (h : p < 2 ^ 31) : fMag (pack neg p) = p := by
  cases neg <;> simp [fMag, pack] <;> omega

theorem fSign_pack (neg : Bool) (p : Nat) (h : p < 2 ^ 31) : fSign (pack neg p) = neg := by
  cases neg <;> simp [fSign, pack, BitVec.msb_eq_decide] <;> omega

/-- A rounded magnitude is a pattern without sign, at most the infinity's. -/
theorem roundMag_le (num den : Nat) : roundMag num den ≤ infMag := Nat.min_le_right _ _

theorem roundMag_lt (num den : Nat) : roundMag num den < 2 ^ 31 :=
  Nat.lt_of_le_of_lt (roundMag_le num den) (by decide)

theorem fMag_pack_roundMag (neg : Bool) (num den : Nat) :
    fMag (pack neg (roundMag num den)) = roundMag num den := fMag_pack _ _ (roundMag_lt _ _)

theorem fSign_pack_roundMag (neg : Bool) (num den : Nat) :
    fSign (pack neg (roundMag num den)) = neg := fSign_pack _ _ (roundMag_lt _ _)

/-- The value of a packed pattern. -/
theorem units_pack (neg : Bool) (p : Nat) (h : p < 2 ^ 31) :
    units (pack neg p) = if neg then -(magUnits p : Int) else magUnits p := by
  simp only [units, fSign_pack _ _ h, fMag_pack _ _ h]

/-- Flipping the sign keeps the magnitude. -/
@[simp] theorem fMag_fNeg (w : F32) : fMag (fNeg w) = fMag w := by
  have h := Nat.xor_mod_two_pow (a := w.toNat) (b := 2 ^ 31) (n := 31)
  simp only [Nat.mod_self, Nat.xor_zero] at h
  simpa [fMag, fNeg] using h

/-- Flipping the sign flips the sign. -/
@[simp] theorem fSign_fNeg (w : F32) : fSign (fNeg w) = !fSign w := by
  have h : (0x80000000 : BitVec 32).msb = true := by decide
  simp only [fSign, fNeg, BitVec.msb_xor, h, Bool.xor_true]

/-- Flipping the sign negates the value. -/
theorem units_fNeg (w : F32) : units (fNeg w) = -units w := by
  cases h : fSign w <;> simp [units, h]

/-- The magnitude of the value. -/
theorem natAbs_units (w : F32) : (units w).natAbs = magUnits (fMag w) := by
  cases h : fSign w <;> simp [units, h]

/-- Whatever the free bits are, the NaN of an operation is a NaN (R132). -/
theorem isNaN_arithNaN (op : FpOp) (a b : F32) : isNaN (arithNaN op a b) = true := by
  have hf : ∀ n : Nat, n < 2 ^ 23 → infMag < infMag + (if n = 0 then 1 else n) ∧
      infMag + (if n = 0 then 1 else n) < 2 ^ 31 := by
    intro n hn
    unfold infMag
    split <;> omega
  obtain ⟨h1, h2⟩ := hf ((Config.nanBits op a b).toNat % 2 ^ 23) (Nat.mod_lt _ (by decide))
  simp only [isNaN, arithNaN, fMag_pack _ _ h2, decide_eq_true_eq]
  exact h1

/-- A pattern is exactly one of NaN, infinity and finite (R127). -/
theorem class_cases (w : F32) : isNaN w = true ∨ isInf w = true ∨ isFinite w = true := by
  simp only [isNaN, isInf, isFinite, decide_eq_true_eq, beq_iff_eq]
  omega

/-- A cast takes its free value from every argument that is not finite (R135). -/
theorem castOk_of_not_finite (lo hi : Int) (x : F32) (h : isFinite x = false) :
    castOk lo hi x = false := by simp [castOk, h]

end Sys2Proof.Machine
end

