-- ==== Sys2Proof/Laws/State.lean ====
section
/-! SUPPORT. What each update of the state does to each field. -/

namespace Sys2Proof.Machine

/-! ## `advance` -/

@[simp] theorem advance_mode (s : State) : (advance s).mode = s.mode := rfl
@[simp] theorem advance_samplerate (s : State) : (advance s).samplerate = s.samplerate := rfl
@[simp] theorem advance_resamplerate (s : State) : (advance s).resamplerate = s.resamplerate := rfl
@[simp] theorem advance_bandwidth (s : State) : (advance s).bandwidth = s.bandwidth := rfl
@[simp] theorem advance_deviation (s : State) : (advance s).deviation = s.deviation := rfl
@[simp] theorem advance_exitStatus (s : State) : (advance s).exitStatus = s.exitStatus := rfl
@[simp] theorem advance_drvState (s : State) : (advance s).drvState = s.drvState := rfl
@[simp] theorem advance_faultCode (s : State) : (advance s).faultCode = s.faultCode := rfl
@[simp] theorem advance_phase (s : State) : (advance s).phase = s.phase + 1 := rfl
@[simp] theorem advance_last (s : State) : (advance s).last = s.last := rfl
@[simp] theorem advance_pvalid (s : State) : (advance s).pvalid = s.pvalid := rfl
@[simp] theorem advance_pr (s : State) : (advance s).pr = s.pr := rfl
@[simp] theorem advance_buf (s : State) : (advance s).buf = s.buf := rfl
@[simp] theorem advance_bufLen (s : State) : (advance s).bufLen = s.bufLen := rfl
@[simp] theorem advance_cbuf (s : State) : (advance s).cbuf = s.cbuf := rfl
@[simp] theorem advance_nc (s : State) : (advance s).nc = s.nc := rfl
@[simp] theorem advance_rcbuf (s : State) : (advance s).rcbuf = s.rcbuf := rfl
@[simp] theorem advance_m (s : State) : (advance s).m = s.m := rfl
@[simp] theorem advance_rbuf (s : State) : (advance s).rbuf = s.rbuf := rfl
@[simp] theorem advance_obuf (s : State) : (advance s).obuf = s.obuf := rfl
@[simp] theorem advance_obLen (s : State) : (advance s).obLen = s.obLen := rfl
@[simp] theorem advance_tcs (s : State) : (advance s).tcs = s.tcs := rfl
@[simp] theorem advance_inRest (s : State) : (advance s).inRest = s.inRest := rfl
@[simp] theorem advance_outAcc (s : State) : (advance s).outAcc = s.outAcc := rfl
@[simp] theorem advance_flushed (s : State) : (advance s).flushed = s.flushed := rfl
@[simp] theorem advance_srcReplies (s : State) : (advance s).srcReplies = s.srcReplies := rfl
@[simp] theorem advance_snkReplies (s : State) : (advance s).snkReplies = s.snkReplies := rfl
@[simp] theorem advance_tcReady (s : State) : (advance s).tcReady = s.tcReady := rfl
@[simp] theorem advance_tcFacts (s : State) : (advance s).tcFacts = s.tcFacts := rfl
@[simp] theorem advance_mCap (s : State) : (advance s).mCap = s.mCap := rfl
@[simp] theorem advance_trace (s : State) : (advance s).trace = s.trace := rfl
@[simp] theorem advance_startReq (s : State) : (advance s).startReq = s.startReq := rfl
@[simp] theorem advance_draws (s : State) : (advance s).draws = s.draws := rfl

/-! ## `emit` -/

@[simp] theorem emit_mode (e : PortEvent) (s : State) : (emit e s).mode = s.mode := rfl
@[simp] theorem emit_samplerate (e : PortEvent) (s : State) : (emit e s).samplerate = s.samplerate := rfl
@[simp] theorem emit_resamplerate (e : PortEvent) (s : State) : (emit e s).resamplerate = s.resamplerate :=
  rfl
@[simp] theorem emit_bandwidth (e : PortEvent) (s : State) : (emit e s).bandwidth = s.bandwidth := rfl
@[simp] theorem emit_deviation (e : PortEvent) (s : State) : (emit e s).deviation = s.deviation := rfl
@[simp] theorem emit_exitStatus (e : PortEvent) (s : State) : (emit e s).exitStatus = s.exitStatus := rfl
@[simp] theorem emit_drvState (e : PortEvent) (s : State) : (emit e s).drvState = s.drvState := rfl
@[simp] theorem emit_faultCode (e : PortEvent) (s : State) : (emit e s).faultCode = s.faultCode := rfl
@[simp] theorem emit_phase (e : PortEvent) (s : State) : (emit e s).phase = s.phase := rfl
@[simp] theorem emit_last (e : PortEvent) (s : State) : (emit e s).last = s.last := rfl
@[simp] theorem emit_pvalid (e : PortEvent) (s : State) : (emit e s).pvalid = s.pvalid := rfl
@[simp] theorem emit_pr (e : PortEvent) (s : State) : (emit e s).pr = s.pr := rfl
@[simp] theorem emit_buf (e : PortEvent) (s : State) : (emit e s).buf = s.buf := rfl
@[simp] theorem emit_bufLen (e : PortEvent) (s : State) : (emit e s).bufLen = s.bufLen := rfl
@[simp] theorem emit_cbuf (e : PortEvent) (s : State) : (emit e s).cbuf = s.cbuf := rfl
@[simp] theorem emit_nc (e : PortEvent) (s : State) : (emit e s).nc = s.nc := rfl
@[simp] theorem emit_rcbuf (e : PortEvent) (s : State) : (emit e s).rcbuf = s.rcbuf := rfl
@[simp] theorem emit_m (e : PortEvent) (s : State) : (emit e s).m = s.m := rfl
@[simp] theorem emit_rbuf (e : PortEvent) (s : State) : (emit e s).rbuf = s.rbuf := rfl
@[simp] theorem emit_obuf (e : PortEvent) (s : State) : (emit e s).obuf = s.obuf := rfl
@[simp] theorem emit_obLen (e : PortEvent) (s : State) : (emit e s).obLen = s.obLen := rfl
@[simp] theorem emit_tcs (e : PortEvent) (s : State) : (emit e s).tcs = s.tcs := rfl
@[simp] theorem emit_inRest (e : PortEvent) (s : State) : (emit e s).inRest = s.inRest := rfl
@[simp] theorem emit_outAcc (e : PortEvent) (s : State) : (emit e s).outAcc = s.outAcc := rfl
@[simp] theorem emit_flushed (e : PortEvent) (s : State) : (emit e s).flushed = s.flushed := rfl
@[simp] theorem emit_srcReplies (e : PortEvent) (s : State) : (emit e s).srcReplies = s.srcReplies := rfl
@[simp] theorem emit_snkReplies (e : PortEvent) (s : State) : (emit e s).snkReplies = s.snkReplies := rfl
@[simp] theorem emit_tcReady (e : PortEvent) (s : State) : (emit e s).tcReady = s.tcReady := rfl
@[simp] theorem emit_tcFacts (e : PortEvent) (s : State) : (emit e s).tcFacts = s.tcFacts := rfl
@[simp] theorem emit_mCap (e : PortEvent) (s : State) : (emit e s).mCap = s.mCap := rfl
@[simp] theorem emit_trace (e : PortEvent) (s : State) : (emit e s).trace = s.trace ++ [e] := rfl
@[simp] theorem emit_startReq (e : PortEvent) (s : State) : (emit e s).startReq = s.startReq := rfl
@[simp] theorem emit_draws (e : PortEvent) (s : State) : (emit e s).draws = s.draws := rfl

/-! ## `raiseFault` -/

@[simp] theorem raiseFault_mode (c : BitVec 3) (s : State) : (raiseFault c s).mode = s.mode := rfl
@[simp] theorem raiseFault_samplerate (c : BitVec 3) (s : State) : (raiseFault c s).samplerate = s.samplerate :=
  rfl
@[simp] theorem raiseFault_resamplerate (c : BitVec 3) (s : State) : (raiseFault c s).resamplerate = s.resamplerate :=
  rfl
@[simp] theorem raiseFault_bandwidth (c : BitVec 3) (s : State) : (raiseFault c s).bandwidth = s.bandwidth :=
  rfl
@[simp] theorem raiseFault_deviation (c : BitVec 3) (s : State) : (raiseFault c s).deviation = s.deviation :=
  rfl
@[simp] theorem raiseFault_exitStatus (c : BitVec 3) (s : State) : (raiseFault c s).exitStatus = Config.exitFail :=
  rfl
@[simp] theorem raiseFault_drvState (c : BitVec 3) (s : State) : (raiseFault c s).drvState = .failed := rfl
@[simp] theorem raiseFault_faultCode (c : BitVec 3) (s : State) : (raiseFault c s).faultCode = c := rfl
@[simp] theorem raiseFault_phase (c : BitVec 3) (s : State) : (raiseFault c s).phase = s.phase := rfl
@[simp] theorem raiseFault_last (c : BitVec 3) (s : State) : (raiseFault c s).last = s.last := rfl
@[simp] theorem raiseFault_pvalid (c : BitVec 3) (s : State) : (raiseFault c s).pvalid = s.pvalid := rfl
@[simp] theorem raiseFault_pr (c : BitVec 3) (s : State) : (raiseFault c s).pr = s.pr := rfl
@[simp] theorem raiseFault_buf (c : BitVec 3) (s : State) : (raiseFault c s).buf = s.buf := rfl
@[simp] theorem raiseFault_bufLen (c : BitVec 3) (s : State) : (raiseFault c s).bufLen = s.bufLen := rfl
@[simp] theorem raiseFault_cbuf (c : BitVec 3) (s : State) : (raiseFault c s).cbuf = s.cbuf := rfl
@[simp] theorem raiseFault_nc (c : BitVec 3) (s : State) : (raiseFault c s).nc = s.nc := rfl
@[simp] theorem raiseFault_rcbuf (c : BitVec 3) (s : State) : (raiseFault c s).rcbuf = s.rcbuf := rfl
@[simp] theorem raiseFault_m (c : BitVec 3) (s : State) : (raiseFault c s).m = s.m := rfl
@[simp] theorem raiseFault_rbuf (c : BitVec 3) (s : State) : (raiseFault c s).rbuf = s.rbuf := rfl
@[simp] theorem raiseFault_obuf (c : BitVec 3) (s : State) : (raiseFault c s).obuf = s.obuf := rfl
@[simp] theorem raiseFault_obLen (c : BitVec 3) (s : State) : (raiseFault c s).obLen = s.obLen := rfl
@[simp] theorem raiseFault_tcs (c : BitVec 3) (s : State) : (raiseFault c s).tcs = s.tcs := rfl
@[simp] theorem raiseFault_inRest (c : BitVec 3) (s : State) : (raiseFault c s).inRest = s.inRest := rfl
@[simp] theorem raiseFault_outAcc (c : BitVec 3) (s : State) : (raiseFault c s).outAcc = s.outAcc := rfl
@[simp] theorem raiseFault_flushed (c : BitVec 3) (s : State) : (raiseFault c s).flushed = s.flushed := rfl
@[simp] theorem raiseFault_srcReplies (c : BitVec 3) (s : State) : (raiseFault c s).srcReplies = s.srcReplies :=
  rfl
@[simp] theorem raiseFault_snkReplies (c : BitVec 3) (s : State) : (raiseFault c s).snkReplies = s.snkReplies :=
  rfl
@[simp] theorem raiseFault_tcReady (c : BitVec 3) (s : State) : (raiseFault c s).tcReady = s.tcReady := rfl
@[simp] theorem raiseFault_tcFacts (c : BitVec 3) (s : State) : (raiseFault c s).tcFacts = s.tcFacts := rfl
@[simp] theorem raiseFault_mCap (c : BitVec 3) (s : State) : (raiseFault c s).mCap = s.mCap := rfl
@[simp] theorem raiseFault_trace (c : BitVec 3) (s : State) : (raiseFault c s).trace = s.trace ++ [.errReport] :=
  rfl
@[simp] theorem raiseFault_startReq (c : BitVec 3) (s : State) : (raiseFault c s).startReq = s.startReq := rfl
@[simp] theorem raiseFault_draws (c : BitVec 3) (s : State) : (raiseFault c s).draws = s.draws := rfl

/-! ## `storeChunk` -/

@[simp] theorem storeChunk_mode (d : List Byte) (s : State) : (storeChunk d s).mode = s.mode := rfl
@[simp] theorem storeChunk_samplerate (d : List Byte) (s : State) : (storeChunk d s).samplerate = s.samplerate :=
  rfl
@[simp] theorem storeChunk_resamplerate (d : List Byte) (s : State) : (storeChunk d s).resamplerate = s.resamplerate :=
  rfl
@[simp] theorem storeChunk_bandwidth (d : List Byte) (s : State) : (storeChunk d s).bandwidth = s.bandwidth :=
  rfl
@[simp] theorem storeChunk_deviation (d : List Byte) (s : State) : (storeChunk d s).deviation = s.deviation :=
  rfl
@[simp] theorem storeChunk_exitStatus (d : List Byte) (s : State) : (storeChunk d s).exitStatus = s.exitStatus :=
  rfl
@[simp] theorem storeChunk_drvState (d : List Byte) (s : State) : (storeChunk d s).drvState = s.drvState :=
  rfl
@[simp] theorem storeChunk_faultCode (d : List Byte) (s : State) : (storeChunk d s).faultCode = s.faultCode :=
  rfl
@[simp] theorem storeChunk_phase (d : List Byte) (s : State) : (storeChunk d s).phase = s.phase + 1 := rfl
@[simp] theorem storeChunk_last (d : List Byte) (s : State) : (storeChunk d s).last = shortRead d.length :=
  rfl
@[simp] theorem storeChunk_pvalid (d : List Byte) (s : State) : (storeChunk d s).pvalid = s.pvalid := rfl
@[simp] theorem storeChunk_pr (d : List Byte) (s : State) : (storeChunk d s).pr = s.pr := rfl
@[simp] theorem storeChunk_buf (d : List Byte) (s : State) : (storeChunk d s).buf = Memory.write s.buf 0 d :=
  rfl
@[simp] theorem storeChunk_bufLen (d : List Byte) (s : State) : (storeChunk d s).bufLen = d.length := rfl
@[simp] theorem storeChunk_cbuf (d : List Byte) (s : State) : (storeChunk d s).cbuf = s.cbuf := rfl
@[simp] theorem storeChunk_nc (d : List Byte) (s : State) : (storeChunk d s).nc = s.nc := rfl
@[simp] theorem storeChunk_rcbuf (d : List Byte) (s : State) : (storeChunk d s).rcbuf = s.rcbuf := rfl
@[simp] theorem storeChunk_m (d : List Byte) (s : State) : (storeChunk d s).m = s.m := rfl
@[simp] theorem storeChunk_rbuf (d : List Byte) (s : State) : (storeChunk d s).rbuf = s.rbuf := rfl
@[simp] theorem storeChunk_obuf (d : List Byte) (s : State) : (storeChunk d s).obuf = s.obuf := rfl
@[simp] theorem storeChunk_obLen (d : List Byte) (s : State) : (storeChunk d s).obLen = s.obLen := rfl
@[simp] theorem storeChunk_tcs (d : List Byte) (s : State) : (storeChunk d s).tcs = s.tcs := rfl
@[simp] theorem storeChunk_inRest (d : List Byte) (s : State) : (storeChunk d s).inRest = s.inRest.drop d.length :=
  rfl
@[simp] theorem storeChunk_outAcc (d : List Byte) (s : State) : (storeChunk d s).outAcc = s.outAcc := rfl
@[simp] theorem storeChunk_flushed (d : List Byte) (s : State) : (storeChunk d s).flushed = s.flushed := rfl
@[simp] theorem storeChunk_srcReplies (d : List Byte) (s : State) : (storeChunk d s).srcReplies = s.srcReplies :=
  rfl
@[simp] theorem storeChunk_snkReplies (d : List Byte) (s : State) : (storeChunk d s).snkReplies = s.snkReplies :=
  rfl
@[simp] theorem storeChunk_tcReady (d : List Byte) (s : State) : (storeChunk d s).tcReady = s.tcReady := rfl
@[simp] theorem storeChunk_tcFacts (d : List Byte) (s : State) : (storeChunk d s).tcFacts = s.tcFacts := rfl
@[simp] theorem storeChunk_mCap (d : List Byte) (s : State) : (storeChunk d s).mCap = s.mCap := rfl
@[simp] theorem storeChunk_trace (d : List Byte) (s : State) : (storeChunk d s).trace = s.trace := rfl
@[simp] theorem storeChunk_startReq (d : List Byte) (s : State) : (storeChunk d s).startReq = s.startReq :=
  rfl
@[simp] theorem storeChunk_draws (d : List Byte) (s : State) : (storeChunk d s).draws = s.draws := rfl

/-! ## `decodeChunk` -/

@[simp] theorem decodeChunk_mode (t : SampleType) (s : State) : (decodeChunk t s).mode = s.mode := rfl
@[simp] theorem decodeChunk_samplerate (t : SampleType) (s : State) : (decodeChunk t s).samplerate = s.samplerate :=
  rfl
@[simp] theorem decodeChunk_resamplerate (t : SampleType) (s : State) : (decodeChunk t s).resamplerate = s.resamplerate :=
  rfl
@[simp] theorem decodeChunk_bandwidth (t : SampleType) (s : State) : (decodeChunk t s).bandwidth = s.bandwidth :=
  rfl
@[simp] theorem decodeChunk_deviation (t : SampleType) (s : State) : (decodeChunk t s).deviation = s.deviation :=
  rfl
@[simp] theorem decodeChunk_exitStatus (t : SampleType) (s : State) : (decodeChunk t s).exitStatus = s.exitStatus :=
  rfl
@[simp] theorem decodeChunk_drvState (t : SampleType) (s : State) : (decodeChunk t s).drvState = s.drvState :=
  rfl
@[simp] theorem decodeChunk_faultCode (t : SampleType) (s : State) : (decodeChunk t s).faultCode = s.faultCode :=
  rfl
@[simp] theorem decodeChunk_phase (t : SampleType) (s : State) : (decodeChunk t s).phase = s.phase + 1 := rfl
@[simp] theorem decodeChunk_last (t : SampleType) (s : State) : (decodeChunk t s).last = s.last := rfl
@[simp] theorem decodeChunk_pvalid (t : SampleType) (s : State) : (decodeChunk t s).pvalid = s.pvalid := rfl
@[simp] theorem decodeChunk_pr (t : SampleType) (s : State) : (decodeChunk t s).pr = s.pr := rfl
@[simp] theorem decodeChunk_buf (t : SampleType) (s : State) : (decodeChunk t s).buf = s.buf := rfl
@[simp] theorem decodeChunk_bufLen (t : SampleType) (s : State) : (decodeChunk t s).bufLen = s.bufLen := rfl
@[simp] theorem decodeChunk_cbuf (t : SampleType) (s : State) : (decodeChunk t s).cbuf = writeArray s.cbuf (decodeSamples t (chunk s)) :=
  rfl
@[simp] theorem decodeChunk_nc (t : SampleType) (s : State) : (decodeChunk t s).nc = (decodeSamples t (chunk s)).length :=
  rfl
@[simp] theorem decodeChunk_rcbuf (t : SampleType) (s : State) : (decodeChunk t s).rcbuf = s.rcbuf := rfl
@[simp] theorem decodeChunk_m (t : SampleType) (s : State) : (decodeChunk t s).m = s.m := rfl
@[simp] theorem decodeChunk_rbuf (t : SampleType) (s : State) : (decodeChunk t s).rbuf = s.rbuf := rfl
@[simp] theorem decodeChunk_obuf (t : SampleType) (s : State) : (decodeChunk t s).obuf = s.obuf := rfl
@[simp] theorem decodeChunk_obLen (t : SampleType) (s : State) : (decodeChunk t s).obLen = s.obLen := rfl
@[simp] theorem decodeChunk_tcs (t : SampleType) (s : State) : (decodeChunk t s).tcs = s.tcs := rfl
@[simp] theorem decodeChunk_inRest (t : SampleType) (s : State) : (decodeChunk t s).inRest = s.inRest := rfl
@[simp] theorem decodeChunk_outAcc (t : SampleType) (s : State) : (decodeChunk t s).outAcc = s.outAcc := rfl
@[simp] theorem decodeChunk_flushed (t : SampleType) (s : State) : (decodeChunk t s).flushed = s.flushed :=
  rfl
@[simp] theorem decodeChunk_srcReplies (t : SampleType) (s : State) : (decodeChunk t s).srcReplies = s.srcReplies :=
  rfl
@[simp] theorem decodeChunk_snkReplies (t : SampleType) (s : State) : (decodeChunk t s).snkReplies = s.snkReplies :=
  rfl
@[simp] theorem decodeChunk_tcReady (t : SampleType) (s : State) : (decodeChunk t s).tcReady = s.tcReady :=
  rfl
@[simp] theorem decodeChunk_tcFacts (t : SampleType) (s : State) : (decodeChunk t s).tcFacts = s.tcFacts :=
  rfl
@[simp] theorem decodeChunk_mCap (t : SampleType) (s : State) : (decodeChunk t s).mCap = s.mCap := rfl
@[simp] theorem decodeChunk_trace (t : SampleType) (s : State) : (decodeChunk t s).trace = s.trace := rfl
@[simp] theorem decodeChunk_startReq (t : SampleType) (s : State) : (decodeChunk t s).startReq = s.startReq :=
  rfl
@[simp] theorem decodeChunk_draws (t : SampleType) (s : State) : (decodeChunk t s).draws = s.draws := rfl

/-! ## `encodeBuffer` -/

@[simp] theorem encodeBuffer_mode (t : SampleType) (sq : Bool) (s : State) : (encodeBuffer t sq s).mode = s.mode :=
  rfl
@[simp] theorem encodeBuffer_samplerate (t : SampleType) (sq : Bool) (s : State) : (encodeBuffer t sq s).samplerate = s.samplerate :=
  rfl
@[simp] theorem encodeBuffer_resamplerate (t : SampleType) (sq : Bool) (s : State) : (encodeBuffer t sq s).resamplerate = s.resamplerate :=
  rfl
@[simp] theorem encodeBuffer_bandwidth (t : SampleType) (sq : Bool) (s : State) : (encodeBuffer t sq s).bandwidth = s.bandwidth :=
  rfl
@[simp] theorem encodeBuffer_deviation (t : SampleType) (sq : Bool) (s : State) : (encodeBuffer t sq s).deviation = s.deviation :=
  rfl
@[simp] theorem encodeBuffer_exitStatus (t : SampleType) (sq : Bool) (s : State) : (encodeBuffer t sq s).exitStatus = s.exitStatus :=
  rfl
@[simp] theorem encodeBuffer_drvState (t : SampleType) (sq : Bool) (s : State) : (encodeBuffer t sq s).drvState = s.drvState :=
  rfl
@[simp] theorem encodeBuffer_faultCode (t : SampleType) (sq : Bool) (s : State) : (encodeBuffer t sq s).faultCode = s.faultCode :=
  rfl
@[simp] theorem encodeBuffer_phase (t : SampleType) (sq : Bool) (s : State) : (encodeBuffer t sq s).phase = s.phase + 1 :=
  rfl
@[simp] theorem encodeBuffer_last (t : SampleType) (sq : Bool) (s : State) : (encodeBuffer t sq s).last = s.last :=
  rfl
@[simp] theorem encodeBuffer_pvalid (t : SampleType) (sq : Bool) (s : State) : (encodeBuffer t sq s).pvalid = s.pvalid :=
  rfl
@[simp] theorem encodeBuffer_pr (t : SampleType) (sq : Bool) (s : State) : (encodeBuffer t sq s).pr = s.pr :=
  rfl
@[simp] theorem encodeBuffer_buf (t : SampleType) (sq : Bool) (s : State) : (encodeBuffer t sq s).buf = s.buf :=
  rfl
@[simp] theorem encodeBuffer_bufLen (t : SampleType) (sq : Bool) (s : State) : (encodeBuffer t sq s).bufLen = s.bufLen :=
  rfl
@[simp] theorem encodeBuffer_cbuf (t : SampleType) (sq : Bool) (s : State) : (encodeBuffer t sq s).cbuf = s.cbuf :=
  rfl
@[simp] theorem encodeBuffer_nc (t : SampleType) (sq : Bool) (s : State) : (encodeBuffer t sq s).nc = s.nc :=
  rfl
@[simp] theorem encodeBuffer_rcbuf (t : SampleType) (sq : Bool) (s : State) : (encodeBuffer t sq s).rcbuf = s.rcbuf :=
  rfl
@[simp] theorem encodeBuffer_m (t : SampleType) (sq : Bool) (s : State) : (encodeBuffer t sq s).m = s.m := rfl
@[simp] theorem encodeBuffer_rbuf (t : SampleType) (sq : Bool) (s : State) : (encodeBuffer t sq s).rbuf = s.rbuf :=
  rfl
@[simp] theorem encodeBuffer_obuf (t : SampleType) (sq : Bool) (s : State) : (encodeBuffer t sq s).obuf = Memory.write s.obuf 0 (encodeSamples t sq s.draws (rbufIn s)) :=
  rfl
@[simp] theorem encodeBuffer_obLen (t : SampleType) (sq : Bool) (s : State) : (encodeBuffer t sq s).obLen = (encodeSamples t sq s.draws (rbufIn s)).length :=
  rfl
@[simp] theorem encodeBuffer_tcs (t : SampleType) (sq : Bool) (s : State) : (encodeBuffer t sq s).tcs = s.tcs :=
  rfl
@[simp] theorem encodeBuffer_inRest (t : SampleType) (sq : Bool) (s : State) : (encodeBuffer t sq s).inRest = s.inRest :=
  rfl
@[simp] theorem encodeBuffer_outAcc (t : SampleType) (sq : Bool) (s : State) : (encodeBuffer t sq s).outAcc = s.outAcc :=
  rfl
@[simp] theorem encodeBuffer_flushed (t : SampleType) (sq : Bool) (s : State) : (encodeBuffer t sq s).flushed = s.flushed :=
  rfl
@[simp] theorem encodeBuffer_srcReplies (t : SampleType) (sq : Bool) (s : State) : (encodeBuffer t sq s).srcReplies = s.srcReplies :=
  rfl
@[simp] theorem encodeBuffer_snkReplies (t : SampleType) (sq : Bool) (s : State) : (encodeBuffer t sq s).snkReplies = s.snkReplies :=
  rfl
@[simp] theorem encodeBuffer_tcReady (t : SampleType) (sq : Bool) (s : State) : (encodeBuffer t sq s).tcReady = s.tcReady :=
  rfl
@[simp] theorem encodeBuffer_tcFacts (t : SampleType) (sq : Bool) (s : State) : (encodeBuffer t sq s).tcFacts = s.tcFacts :=
  rfl
@[simp] theorem encodeBuffer_mCap (t : SampleType) (sq : Bool) (s : State) : (encodeBuffer t sq s).mCap = s.mCap :=
  rfl
@[simp] theorem encodeBuffer_trace (t : SampleType) (sq : Bool) (s : State) : (encodeBuffer t sq s).trace = s.trace :=
  rfl
@[simp] theorem encodeBuffer_startReq (t : SampleType) (sq : Bool) (s : State) : (encodeBuffer t sq s).startReq = s.startReq :=
  rfl
@[simp] theorem encodeBuffer_draws (t : SampleType) (sq : Bool) (s : State) : (encodeBuffer t sq s).draws = s.draws + s.m :=
  rfl

end Sys2Proof.Machine
end

