-- ==== Sys2Proof/Laws/Ops.lean ====
section
/-! SUPPORT. What each shared operation can do, said once. -/

namespace Sys2Proof.Machine

/-- `LAST` after a read (R34). -/
@[simp] theorem shortRead_iff (n : Nat) : shortRead n = true ↔ n < 8192 := decide_eq_true_iff

/-- What fits a bounded or an unbounded `M_CAP` (R189). -/
theorem fitsCap_iff (cap : Option Nat) (n : Nat) :
    fitsCap cap n = true ↔ ∀ c, cap = some c → n ≤ c := by
  cases cap with
  | none => simp [fitsCap]
  | some c => simp [fitsCap]

/-- The four `DEC` operations are one operation at four types. -/
theorem exec_decOf (t : SampleType) (s : State) : exec (decOf t) s = .next (decodeChunk t s) := by
  cases t <;> rfl

/-- The eight `ENC` operations are one operation at four types and two shapings. -/
theorem exec_encOf (t : SampleType) (sq : Bool) (s : State) :
    exec (encOf t sq) s = .next (encodeBuffer t sq s) := by
  cases t <;> cases sq <;> rfl

/-- `INIT`'s calls either all succeed, or some prefix of them is made and the fault is taken. -/
theorem createChain_cases (p : PrFile) (s : State) :
    (∃ f0 f1 r0 d0, tcCreateFilter s p.taps.toNat p.cutoff p.atten p.center = some f0 ∧
      tcFilterSetGain s f0 p.gain = some f1 ∧ tcCreateResampler s p.ratio p.atten = some r0 ∧
      tcCreateFmDemodulator s p.sens = some d0 ∧
      createChain p s = advance { s with trace := s.trace ++ setupEvents, tcs := some ⟨f1, r0, d0⟩ }) ∨
    (∃ n, 1 ≤ n ∧ n ≤ 4 ∧
      createChain p s = raiseFault fXform { s with trace := s.trace ++ setupEvents.take n }) := by
  unfold createChain
  cases h1 : tcCreateFilter s p.taps.toNat p.cutoff p.atten p.center with
  | none => exact .inr ⟨1, by omega, by omega, rfl⟩
  | some f0 =>
    cases h2 : tcFilterSetGain s f0 p.gain with
    | none => exact .inr ⟨2, by omega, by omega, by simp [h2, raiseFault, emit, setupEvents]⟩
    | some f1 =>
      cases h3 : tcCreateResampler s p.ratio p.atten with
      | none => exact .inr ⟨3, by omega, by omega, by simp [h2, raiseFault, emit, setupEvents]⟩
      | some r0 =>
        cases h4 : tcCreateFmDemodulator s p.sens with
        | none => exact .inr ⟨4, by omega, by omega, by simp [h2, raiseFault, emit, setupEvents]⟩
        | some d0 =>
          exact .inl ⟨f0, f1, r0, d0, rfl, h2, rfl, rfl,
            by simp [h2, advance, emit, setupEvents]⟩

/-- `FILTER`'s call stores its result, or the fault is taken. -/
theorem filterStage_cases (c : ChainSt) (s : State) :
    (∃ f' y, tcFilterApply s c.filt (cbufIn s) = some (f', y) ∧
      filterStage c s = advance { s with
        trace := s.trace ++ [.filterApply], tcs := some { c with filt := f' },
        cbuf := writeArray s.cbuf y }) ∨
    (tcFilterApply s c.filt (cbufIn s) = none ∧
      filterStage c s = raiseFault fXform { s with trace := s.trace ++ [.filterApply] }) := by
  unfold filterStage
  cases h : tcFilterApply s c.filt (cbufIn s) with
  | none => exact .inr ⟨rfl, rfl⟩
  | some p => exact .inl ⟨p.1, p.2, rfl, rfl⟩

/-- `RESAMPLE`'s call stores its result where it fits, or the fault is taken. -/
theorem resampleStage_cases (c : ChainSt) (s : State) :
    (∃ r' z, tcResamplerProcess s c.rs (cbufIn s) = some (r', z) ∧ fitsCap s.mCap z.length = true ∧
      resampleStage c s = advance { s with
        trace := s.trace ++ [.resamplerProcess], tcs := some { c with rs := r' }, m := z.length,
        rcbuf := writeArray s.rcbuf z }) ∨
    resampleStage c s = raiseFault fXform { s with trace := s.trace ++ [.resamplerProcess] } := by
  unfold resampleStage
  cases h : tcResamplerProcess s c.rs (cbufIn s) with
  | none => exact .inr rfl
  | some p =>
    cases hf : fitsCap s.mCap p.2.length with
    | true => exact .inl ⟨p.1, p.2, rfl, hf, by simp [hf, emit, advance]⟩
    | false => exact .inr (by simp [hf, emit, raiseFault])

/-- `DEMOD`'s call stores its result, or the fault is taken. -/
theorem demodStage_cases (c : ChainSt) (s : State) :
    (∃ d' x, tcDemodProcess s c.dm (rcbufIn s) = some (d', x) ∧
      demodStage c s = advance { s with
        trace := s.trace ++ [.demodProcess], tcs := some { c with dm := d' },
        rbuf := writeArray s.rbuf x }) ∨
    (tcDemodProcess s c.dm (rcbufIn s) = none ∧
      demodStage c s = raiseFault fXform { s with trace := s.trace ++ [.demodProcess] }) := by
  unfold demodStage
  cases h : tcDemodProcess s c.dm (rcbufIn s) with
  | none => exact .inr ⟨rfl, rfl⟩
  | some p => exact .inl ⟨p.1, p.2, rfl, rfl⟩

/-- A step that answers a next state rests, or executes one decoded operation. -/
theorem step_next_cases (s t : State) (h : step s = .next t) :
    (issue s = .wait ∧ t = s) ∨
    (∃ w s' i, issue s = .run w s' ∧ decode [w] = .ok (i, []) ∧ exec i s' = .next t) := by
  unfold step at h
  cases hi : issue s with
  | wait => rw [hi] at h; injection h with h; exact .inl ⟨rfl, h.symm⟩
  | never => rw [hi] at h; cases h
  | run w s' =>
    rw [hi] at h
    simp only [runWord, decode] at h
    cases hd : decodeWord w with
    | error e => simp [hd] at h
    | ok i => exact .inr ⟨w, s', i, rfl, by simp [decode, hd], by simpa [hd] using h⟩

/-! ## Connecting and supplying -/

/-- What must come before START has no effect outside `IDLE` (R48, R288). -/
theorem stateTc_of_not_idle (f : TcFacts) (s : State) (h : s.drvState ≠ .idle) : stateTc f s = s := by
  simp [stateTc, configurable, h]

/-- What must come before START has no effect outside `IDLE` (R288). -/
theorem hostConnect_of_not_idle (input : List Byte) (s : State) (h : s.drvState ≠ .idle) :
    hostConnect input s = s := by
  simp [hostConnect, configurable, h]

/-- An endless source (R239): wherever the block waits for input, a host that supplies another 8192
bytes and answers gets a full read, with `LAST = 0`, and `NEXT` then goes back to `READ`. -/
theorem read_of_supplied (d : List Byte) (s : State) (hi : s.inRest = []) (hs : s.srcReplies = [])
    (hd : d.length = 8192) :
    ∃ t, execRead (answerSrc (.ok 8192) (supplySrc d s)) = .next t ∧ t.last = false ∧
      t.bufLen = 8192 ∧ t.inRest = [] ∧ t.srcReplies = [] ∧ t.phase = s.phase + 1 ∧
      t.drvState = s.drvState ∧ execNext t = .next { t with phase := 3 } := by
  refine ⟨_, by simp only [execRead, answerSrc, supplySrc, hs, List.nil_append]; rfl, ?_⟩
  simp [storeChunk, delivered, advance, emit, shortRead, hi, hd, execNext, Config.bufferSize]

/-! ## A configuration line -/

/-- Clearing the configuration gives CR2..CR6 their reset values and changes nothing else; where they
cannot be written it changes nothing (R21, R111). -/
theorem clearConfig_eq (s : State) :
    clearConfig s = if configurable s then
      { s with mode := 0, samplerate := 0, resamplerate := 0, bandwidth := 0, deviation := 0 } else s := by
  cases h : configurable s with
  | false => simp [clearConfig, hostWriteCR, h]
  | true =>
    have hc : ∀ m a b c d : Word, configurable { s with
        mode := m, samplerate := a, resamplerate := b, bandwidth := c, deviation := d } = true :=
      fun _ _ _ _ _ => h
    simp [clearConfig, hostWriteCR, h, hc, State.reset]

/-- What a line leaves does not depend on what CR2..CR6 held before it (R111). -/
theorem assemble_forgets (line : List ConfigItem) (s : State) (m a b c d : Word)
    (h : configurable s = true) :
    assemble line { s with
      mode := m, samplerate := a, resamplerate := b, bandwidth := c, deviation := d } =
    assemble line s := by
  have h' : configurable { s with
      mode := m, samplerate := a, resamplerate := b, bandwidth := c, deviation := d } = true := h
  simp only [assemble, clearConfig_eq, h, h', if_true]

/-- The buffer size as a numeral, for `omega`. -/
theorem bufferSize_eq : Config.bufferSize = 8192 := rfl

/-- The configuration buffer's capacity as a numeral, for `omega`. -/
theorem cbufCap_eq : Config.cbufCap = 4096 := rfl

end Sys2Proof.Machine
end

