-- ==== Sys2Proof/Laws/PerInstr.lean ====
section
/-! SUPPORT. Facts about every operation as syntax, one lemma per operation. -/

/-- The word of an operation is legal: its fields break no rule of R103 (R107). -/
def Sys2Proof.Laws.WordLegal.Statement (i : Sys2Proof.Instr) : Prop :=
  (Sys2Proof.op8Fields (Sys2Proof.encodeWord i)).wf = true

theorem Sys2Proof.Laws.WordLegal.decS8 : Sys2Proof.Laws.WordLegal.Statement .decS8 := rfl
theorem Sys2Proof.Laws.WordLegal.decU8 : Sys2Proof.Laws.WordLegal.Statement .decU8 := rfl
theorem Sys2Proof.Laws.WordLegal.decI16 : Sys2Proof.Laws.WordLegal.Statement .decI16 := rfl
theorem Sys2Proof.Laws.WordLegal.decF32 : Sys2Proof.Laws.WordLegal.Statement .decF32 := rfl
theorem Sys2Proof.Laws.WordLegal.encS8 : Sys2Proof.Laws.WordLegal.Statement .encS8 := rfl
theorem Sys2Proof.Laws.WordLegal.encU8 : Sys2Proof.Laws.WordLegal.Statement .encU8 := rfl
theorem Sys2Proof.Laws.WordLegal.encI16 : Sys2Proof.Laws.WordLegal.Statement .encI16 := rfl
theorem Sys2Proof.Laws.WordLegal.encF32 : Sys2Proof.Laws.WordLegal.Statement .encF32 := rfl
theorem Sys2Proof.Laws.WordLegal.encS8Sq : Sys2Proof.Laws.WordLegal.Statement .encS8Sq := rfl
theorem Sys2Proof.Laws.WordLegal.encU8Sq : Sys2Proof.Laws.WordLegal.Statement .encU8Sq := rfl
theorem Sys2Proof.Laws.WordLegal.encI16Sq : Sys2Proof.Laws.WordLegal.Statement .encI16Sq := rfl
theorem Sys2Proof.Laws.WordLegal.encF32Sq : Sys2Proof.Laws.WordLegal.Statement .encF32Sq := rfl
theorem Sys2Proof.Laws.WordLegal.derive : Sys2Proof.Laws.WordLegal.Statement .derive := rfl
theorem Sys2Proof.Laws.WordLegal.init : Sys2Proof.Laws.WordLegal.Statement .init := rfl
theorem Sys2Proof.Laws.WordLegal.start : Sys2Proof.Laws.WordLegal.Statement .start := rfl
theorem Sys2Proof.Laws.WordLegal.read : Sys2Proof.Laws.WordLegal.Statement .read := rfl
theorem Sys2Proof.Laws.WordLegal.filter : Sys2Proof.Laws.WordLegal.Statement .filter := rfl
theorem Sys2Proof.Laws.WordLegal.resample : Sys2Proof.Laws.WordLegal.Statement .resample := rfl
theorem Sys2Proof.Laws.WordLegal.demod : Sys2Proof.Laws.WordLegal.Statement .demod := rfl
theorem Sys2Proof.Laws.WordLegal.write : Sys2Proof.Laws.WordLegal.Statement .write := rfl
theorem Sys2Proof.Laws.WordLegal.flush : Sys2Proof.Laws.WordLegal.Statement .flush := rfl
theorem Sys2Proof.Laws.WordLegal.next : Sys2Proof.Laws.WordLegal.Statement .next := rfl
end

