-- ==== Sys2Proof/Tests/Slice0.lean ====
section
/-! SUPPORT. Tests of the model against spec/95_test_vectors.md and the words of 30_encoding.md, and a
witness for the hypotheses of every statement. -/

namespace Sys2Proof.Tests

open Sys2Proof Sys2Proof.Machine

/-! ## Helpers -/

/-- The outcome is a next state with this property. -/
def nextIs (o : Host.Outcome State Fault Refusal) (p : State → Bool) : Bool :=
  match o with
  | .next t => p t
  | .fault _ => false
  | .refused _ => false

/-- The outcome is the refusal `r`. -/
def refusedAs (o : Host.Outcome State Fault Refusal) (r : Refusal) : Bool :=
  match o with
  | .next _ => false
  | .fault _ => false
  | .refused r' => decide (r' = r)

/-- `n` bytes from 0 on of `OBUF`. -/
def obytes (s : State) (n : Nat) : List Byte := (List.range n).map (byteAt s .obuf)

/-- A chain. -/
def chain : ChainSt := ⟨⟨1⟩, ⟨2⟩, ⟨3⟩⟩

/-- The configuration of program P1, in `IDLE`, `M_CAP` unbounded. -/
def cfgP1 : State := { State.reset with
  mode := 0x00003725, samplerate := 2000000, bandwidth := 200000, deviation := 75000, mCap := none }

/-- The Pipeline Parameters of program P1. -/
def prP1 : PrFile := ⟨64, 0x3DCCCCCD, 0x428C0000, 0x3E4CCCCD, 0x3F800000, 0x3D19999A, 0x00000000⟩

/-- Program P1 in `RUNNING` at a phase, with the chain created. -/
def at_ (p : BitVec 4) : State := { cfgP1 with
  drvState := .running, phase := p, pvalid := true, pr := prP1, tcs := some chain }

/-- A `DEC` operation on a chunk. -/
def withChunk (b : List Byte) : State := { at_ 4 with
  buf := Memory.cells 0 b, bufLen := b.length }

/-- An `ENC` operation on samples. -/
def withSamples (x : List F32) : State := { at_ 8 with rbuf := x, m := x.length }

/-! ## Well-formedness: an ill-formed term for each check -/

/-- R103, R107: `ZERO` not 000 (word 0x20), `DEC` with `SQ` (0x04), `SET` with `SQ` (0x14) and with
function 2 (0x12). -/
theorem test_wf_words :
    Op8.wf ⟨1, 0, 0, 0⟩ = false ∧ Op8.zeroOk ⟨1, 0, 0, 0⟩ = false ∧
    Op8.wf ⟨0, 0, 1, 0⟩ = false ∧ Op8.decOk ⟨0, 0, 1, 0⟩ = false ∧
    Op8.wf ⟨0, 2, 1, 0⟩ = false ∧ Op8.setOk ⟨0, 2, 1, 0⟩ = false ∧
    Op8.wf ⟨0, 2, 0, 2⟩ = false ∧ Op8.setOk ⟨0, 2, 0, 2⟩ = false ∧
    Op8.wf ⟨0, 2, 0, 1⟩ = true ∧ Op8.wf ⟨0, 1, 1, 3⟩ = true := by decide

/-- R110: a rate of 0 or above 4294967295, `deviation` before `fm`, a rate after it. -/
theorem test_wf_lines :
    ConfigItem.wf (.samplerate 0) = false ∧ ConfigItem.wf (.deviation 4294967296) = false ∧
    ConfigItem.wf (.bandwidth 4294967295) = true ∧
    lineWf [.samplerate 0] = false ∧
    lineOrderOk false [.deviation 5, .fm] = false ∧ lineOrderOk false [.fm, .samplerate 5] = false ∧
    lineWf [.deviation 5, .fm] = false ∧
    lineWf [.samplerate 2000000, .intype .u8, .outtype .i16, .bandwidth 200000, .fm, .deviation 75000]
      = true := by decide

/-! ## Decoding: the words of R104, written out bit by bit -/

/-- Unit `DEC` is 00 in bits 4:3, the type code in bits 1:0. -/
theorem test_decode_dec :
    decodeWord 0b00000000 = .ok .decS8 ∧ decodeWord 0b00000001 = .ok .decU8 ∧
    decodeWord 0b00000010 = .ok .decI16 ∧ decodeWord 0b00000011 = .ok .decF32 := by decide

/-- Unit `ENC` is 01 in bits 4:3, bit 2 is the square-wave flag. -/
theorem test_decode_enc :
    decodeWord 0b00001000 = .ok .encS8 ∧ decodeWord 0b00001001 = .ok .encU8 ∧
    decodeWord 0b00001010 = .ok .encI16 ∧ decodeWord 0b00001011 = .ok .encF32 ∧
    decodeWord 0b00001100 = .ok .encS8Sq ∧ decodeWord 0b00001101 = .ok .encU8Sq ∧
    decodeWord 0b00001110 = .ok .encI16Sq ∧ decodeWord 0b00001111 = .ok .encF32Sq := by decide

/-- Unit `SET` is 10 in bits 4:3. -/
theorem test_decode_set :
    decodeWord 0b00010000 = .ok .derive ∧ decodeWord 0b00010001 = .ok .init := by decide

/-- Unit `DRV` is 11 in bits 4:3, the function number in bits 2:0. -/
theorem test_decode_drv :
    decodeWord 0b00011000 = .ok .start ∧ decodeWord 0b00011001 = .ok .read ∧
    decodeWord 0b00011010 = .ok .filter ∧ decodeWord 0b00011011 = .ok .resample ∧
    decodeWord 0b00011100 = .ok .demod ∧ decodeWord 0b00011101 = .ok .write ∧
    decodeWord 0b00011110 = .ok .flush ∧ decodeWord 0b00011111 = .ok .next := by decide

/-- R107 and set O: the ends of each range of reserved words, each refused under its reason. -/
theorem test_decode_reserved :
    decodeWord 0x04 = .error .decWithSq ∧ decodeWord 0x05 = .error .decWithSq ∧
    decodeWord 0x07 = .error .decWithSq ∧ decodeWord 0x12 = .error .setFunction ∧
    decodeWord 0x14 = .error .setFunction ∧ decodeWord 0x17 = .error .setFunction ∧
    decodeWord 0x20 = .error .zeroField ∧ decodeWord 0x80 = .error .zeroField ∧
    decodeWord 0xFF = .error .zeroField ∧ decode [] = .error .noByte := by decide

/-- The rows of the table select disjoint words. -/
theorem test_table_rows_disjoint :
    List.Pairwise (fun a b => a.code &&& b.mask ≠ b.code) opTable := by decide

/-- Set O. -/
theorem test_opword :
    opword 4 0x00000002 = some 0x02 ∧ opword 8 0x00000004 = some 0x09 ∧
    opword 8 0x0000001C = some 0x0F := by decide

/-- R104: a table word that is placed is executed by the very next step, here `READ` (it waits) and
`NEXT`. -/
theorem test_withFetchWord :
    nextIs (step (State.reset.withFetchWord 8 0x19)) (fun t => t.phase == 3) = true ∧
    nextIs (step (State.reset.withFetchWord 8 0x1F)) (fun t => t.phase == 3) = true ∧
    refusedAs (step (State.reset.withFetchWord 8 0x05)) .phaseNeverHeld = true := by decide

/-! ## Configuration, reset and views -/

/-- The example of R111 and the registers of program P2. -/
theorem test_assemble :
    (let s := assemble [.samplerate 2000000, .intype .u8, .outtype .i16, .bandwidth 200000, .fm,
        .deviation 75000] State.reset
     s.mode == 0x00003729 && s.samplerate == 2000000 && s.bandwidth == 200000 &&
     s.deviation == 75000 && s.resamplerate == 0 && s.startReq) = true ∧
    (assemble [.samplerate 240000, .resamplerate 48000, .intype .i16, .outtype .f32, .bandwidth 16000,
      .fm, .deviation 5000] State.reset).mode = 0x00003F2E ∧
    (assemble [.samplerate 1000000, .intype .s8, .outtype .s8, .bandwidth 12500, .fm, .deviation 2500,
      .squarewave] State.reset).mode = 0x00003730 := by decide

/-- R111: a line starts from the reset values, so the items it omits are absent whatever was written
before; in `RUNNING` it changes nothing (R80). -/
theorem test_assemble_forgets :
    (let s := assemble [.samplerate 2000000, .intype .u8]
      { cfgP1 with mode := 0x00003F3F, resamplerate := 48000 }
     s.mode == 0x00000501 && s.samplerate == 2000000 && s.resamplerate == 0 && s.bandwidth == 0 &&
     s.deviation == 0 && s.startReq) = true ∧
    (let s := assemble [.samplerate 1] (at_ 3)
     s.mode == 0x00003725 && s.samplerate == 2000000 && !s.startReq) = true := by decide

/-- R24: writes to the reserved bits of `MODE` are ignored. -/
theorem test_mode_reserved : (hostWriteCR State.reset 2 0xFFFFFFFF).mode = 0x00003F3F := by decide

/-- R48, R288: the ports are connected and the chain stated in `IDLE` before START; in `RUNNING`, and once
a START command is written, the moves have no effect. -/
theorem test_connect :
    (hostConnect [1, 2] { cfgP1 with outAcc := [9] }).inRest = [1, 2] ∧
    (hostConnect [1, 2] { at_ 3 with outAcc := [9] }).outAcc = [9] ∧
    (hostConnect [1, 2] { cfgP1 with startReq := true, outAcc := [9] }).outAcc = [9] ∧
    (stateTc { TcFacts.none with createFmDemodulator := [(0, none)] } cfgP1).tcFacts ≠ TcFacts.none ∧
    (stateTc { TcFacts.none with createFmDemodulator := [(0, none)] } (at_ 3)).tcFacts
      = TcFacts.none := by decide

/-- R50, R239: in a run the host supplies more of the stream. -/
theorem test_supplySrc : (supplySrc [3] { at_ 3 with inRest := [1, 2] }).inRest = [1, 2, 3] := by decide

/-- The end state of program P1 seen through `STATUS`. -/
theorem test_status :
    hostReadCR { at_ 11 with drvState := .stopped, last := true } 1 = 0x00000B0E := by decide

/-! ## Numbers (40_numerics.md) -/

/-- The examples of R131 and R133. -/
theorem test_numerics :
    i2f 16777217 = 0x4B800000 ∧ i2f 4294967295 = 0x4F800000 ∧
    roundHaz 0xBF000000 = 0xBF800000 ∧ roundHaz 0x3F000000 = 0x3F800000 ∧
    roundHaz 0x42FD0000 = 0x42FE0000 ∧ roundHaz 0xC2808000 = 0xC2800000 ∧
    roundHaz 0x40200000 = 0x40400000 := by decide

/-- Set D2, the intermediate values for byte 0x80. -/
theorem test_numerics_steps :
    i2f 128 = 0x43000000 ∧ fdiv 0x43000000 f255 = 0x3F008081 ∧ fmul fTwo 0x3F008081 = 0x3F808081 ∧
    fsub 0x3F808081 fOne = 0x3B808100 := by decide

/-! ## Sample Decoder -/

/-- Set D1. -/
theorem test_decS8_codes :
    s8map 0x80 = 0xBF800000 ∧ s8map 0x81 = 0xBF7DFDFE ∧ s8map 0xC0 = 0xBEFEFEFE ∧
    s8map 0xFF = 0xBB808080 ∧ s8map 0x00 = 0x3B808100 ∧ s8map 0x40 = 0x3F018182 ∧
    s8map 0x7F = 0x3F800000 := by decide

/-- Set D5, s8: the last byte is dropped. -/
theorem test_decS8 :
    nextIs (exec .decS8 (withChunk [0x80, 0x7F, 0x00])) (fun t =>
      t.nc == 1 && t.cbuf == [⟨0xBF800000, 0x3F800000⟩] && t.phase == 5) = true := by decide

/-- Set D2. -/
theorem test_decU8_codes :
    u8map 0x00 = 0xBF800000 ∧ u8map 0x01 = 0xBF7DFDFE ∧ u8map 0x09 = 0xBF6DEDEE ∧
    u8map 0x7F = 0xBB808080 ∧ u8map 0xC8 = 0x3F119192 ∧ u8map 0xFE = 0x3F7DFDFE ∧
    u8map 0xFF = 0x3F800000 := by decide

/-- Program P1, step 5. -/
theorem test_decU8 :
    nextIs (exec .decU8 (withChunk [0x00, 0xFF, 0x80, 0x00, 0x7F, 0x09, 0xC8])) (fun t =>
      t.nc == 3 && t.cbuf == [⟨0xBF800000, 0x3F800000⟩, ⟨0x3B808100, 0xBF800000⟩,
        ⟨0xBB808080, 0xBF6DEDEE⟩]) = true := by decide

/-- Set D3. -/
theorem test_decI16_codes :
    i16map 0x8000 = 0xBF800000 ∧ i16map 0x8001 = 0xBF7FFE00 ∧ i16map 0xFFFF = 0xB8000000 ∧
    i16map 0x0000 = 0x00000000 ∧ i16map 0x0001 = 0x38000000 ∧ i16map 0x7FFF = 0x3F7FFE00 := by decide

/-- Set D5, i16: low byte first, I before Q, a longer old sample list keeps its tail. -/
theorem test_decI16 :
    nextIs (exec .decI16 { withChunk [0x34, 0x12, 0x00, 0xC0, 0xFF] with cbuf := [⟨1, 2⟩, ⟨3, 4⟩] })
      (fun t => t.nc == 1 && t.cbuf == [⟨0x3E11A000, 0xBF000000⟩, ⟨3, 4⟩]) = true := by decide

/-- Set D5, f32. -/
theorem test_decF32 :
    nextIs (exec .decF32 (withChunk [0x00, 0x00, 0x80, 0x3F, 0x00, 0x00, 0x00, 0xBF])) (fun t =>
      t.nc == 1 && t.cbuf == [⟨0x3F800000, 0xBF000000⟩]) = true := by decide

/-- Set D4 and D5, f32: a signalling NaN is copied; seven bytes give no sample. -/
theorem test_decF32_copies :
    nextIs (exec .decF32 (withChunk [0x01, 0x00, 0x80, 0x7F, 0x00, 0x00, 0x00, 0x80])) (fun t =>
      t.cbuf == [⟨0x7F800001, 0x80000000⟩]) = true ∧
    nextIs (exec .decF32 (withChunk [0x00, 0x00, 0x80, 0x3F, 0x00, 0x00, 0x00])) (fun t =>
      t.nc == 0) = true := by decide

/-! ## Parameter Deriver -/

/-- Set S2, second row. -/
theorem test_derive :
    nextIs (exec .derive { cfgP1 with mode := 0x00003F25, resamplerate := 48000 }) (fun t =>
      t.pr == ⟨64, 0x3DCCCCCD, 0x428C0000, 0x3E4CCCCD, 0x3CC49BA6, 0x3FC80000, 0x00000000⟩ &&
      t.pvalid) = true := by decide

/-- Set P: the row above 2^24, and a present resample rate of 0. -/
theorem test_derive_ends :
    nextIs (exec .derive { cfgP1 with samplerate := 4294967295, bandwidth := 1, deviation := 1 })
      (fun t => t.pr == ⟨64, 0x2F800000, 0x428C0000, 0x30000000, 0x3F800000, 0x2F800000, 0⟩) = true ∧
    nextIs (exec .derive { cfgP1 with mode := 0x00003F25 }) (fun t =>
      t.faultCode == 1 && !t.pvalid) = true := by decide

/-! ## Transform Chain -/

/-- A chain that answers the creation calls for the parameters of P1. -/
def createFacts : TcFacts := { TcFacts.none with
  createFilter := [((64, 0x3DCCCCCD, 0x428C0000, 0x00000000), some ⟨7⟩)]
  filterSetGain := [((⟨7⟩, 0x3E4CCCCD), some ⟨1⟩)]
  createResampler := [((0x3F800000, 0x428C0000), some ⟨2⟩)]
  createFmDemodulator := [(0x3D19999A, some ⟨3⟩)] }

/-- Program P1, step 3. -/
theorem test_init :
    nextIs (exec .init { at_ 2 with tcs := none, tcFacts := createFacts }) (fun t =>
      t.tcs == some chain && t.phase == 3 && t.trace == setupEvents) = true := by decide

/-- Set F: the third creation call fails. -/
theorem test_init_fault :
    nextIs (exec .init { at_ 2 with
        tcs := none, tcFacts := { createFacts with createResampler := [((0x3F800000, 0x428C0000), none)] } })
      (fun t => hostReadCR t 1 == 0x0000024B && t.exitStatus == 1 && t.tcs == none) = true := by decide

/-- The samples of program P1. -/
def samples1 : List ComplexSample :=
  [⟨0xBF800000, 0x3F800000⟩, ⟨0x3B808100, 0xBF800000⟩, ⟨0xBB808080, 0xBF6DEDEE⟩]

/-- A chain that passes `samples1` on, as `TC_PASS` does, with states that tell the calls apart. -/
def passFacts : TcFacts := { TcFacts.none with
  filterApply := [((⟨1⟩, samples1), some (⟨11⟩, samples1))]
  resamplerProcess := [((⟨2⟩, samples1), some (⟨12⟩, samples1))]
  demodProcess := [((⟨3⟩, samples1), some (⟨13⟩, [0xBF800000, 0x3B808100, 0xBB808080]))] }

/-- A chain that fails on `samples1`. -/
def failFacts : TcFacts := { TcFacts.none with
  filterApply := [((⟨1⟩, samples1), none)]
  resamplerProcess := [((⟨2⟩, samples1), none)]
  demodProcess := [((⟨3⟩, samples1), none)] }

/-- Program P1 at a stage of the chain. -/
def stage (p : BitVec 4) (f : TcFacts) : State := { at_ p with
  cbuf := samples1, nc := 3, rcbuf := samples1, m := 3, tcFacts := f }

/-- Program P1, step 6. -/
theorem test_filter :
    nextIs (exec .filter (stage 5 passFacts)) (fun t =>
      t.tcs == some ⟨⟨11⟩, ⟨2⟩, ⟨3⟩⟩ && t.cbuf == samples1 && t.phase == 6) = true := by decide

/-- Set F. -/
theorem test_filter_fault :
    nextIs (exec .filter (stage 5 failFacts)) (fun t =>
      hostReadCR t 1 == 0x0000054B && t.cbuf == samples1 && t.tcs == some chain) = true := by decide

/-- Program P1, step 7. -/
theorem test_resample :
    nextIs (exec .resample { stage 6 passFacts with m := 0, rcbuf := [] }) (fun t =>
      t.m == 3 && t.rcbuf == samples1 && t.tcs == some ⟨⟨1⟩, ⟨12⟩, ⟨3⟩⟩) = true := by decide

/-- Set F: a failure, and U21: more samples than `M_CAP`. -/
theorem test_resample_fault :
    nextIs (exec .resample (stage 6 failFacts)) (fun t => hostReadCR t 1 == 0x0000064B) = true ∧
    nextIs (exec .resample { stage 6 passFacts with mCap := some 2, m := 1 }) (fun t =>
      hostReadCR t 1 == 0x0000064B && t.m == 1 && t.tcs == some chain) = true := by decide

/-- Program P1, step 8. -/
theorem test_demod :
    nextIs (exec .demod (stage 7 passFacts)) (fun t =>
      t.rbuf == [0xBF800000, 0x3B808100, 0xBB808080] && t.tcs == some ⟨⟨1⟩, ⟨2⟩, ⟨13⟩⟩) = true := by decide

/-- Set F. -/
theorem test_demod_fault :
    nextIs (exec .demod (stage 7 failFacts)) (fun t => hostReadCR t 1 == 0x0000074B) = true := by decide

/-! ## Sample Encoder -/

/-- Set E7 and set E1, the ties. -/
theorem test_encS8 :
    nextIs (exec .encS8 (withSamples [0x3F800000, 0x00000000, 0xBF800000, 0x3F7EFEFE, 0xBF7EFEFE,
        0x3A83126F, 0xBF000000])) (fun t =>
      t.obLen == 7 && obytes t 7 == [0x7F, 0xFF, 0x80, 0x7F, 0x81, 0x00, 0xC0] && t.phase == 9)
      = true := by decide

/-- Set E7 and set E2. -/
theorem test_encU8 :
    nextIs (exec .encU8 (withSamples [0x3F800000, 0x00000000, 0xBF800000, 0x3F000000, 0x3F7FFFFE,
        0x40200000])) (fun t =>
      obytes t 6 == [0xFF, 0x7F, 0x00, 0xBF, 0xFE, 0xFF]) = true := by decide

/-- Set E6: a NaN between two numbers leaves them and the length alone. -/
theorem test_encU8_nan :
    nextIs (exec .encU8 (withSamples [0x3F800000, 0x7FC00000, 0xBF800000])) (fun t =>
      t.obLen == 3 && byteAt t .obuf 0 == 0xFF && byteAt t .obuf 2 == 0x00) = true := by decide

/-- Set E3. -/
theorem test_encI16 :
    nextIs (exec .encI16 (withSamples [0x3F800000, 0xBF800000, 0xBF000000, 0x37800100, 0x38A00140,
        0x3DCCCCCD])) (fun t =>
      t.obLen == 12 && obytes t 12 == [0xFF, 0x7F, 0x01, 0x80, 0x00, 0xC0, 0x01, 0x00, 0x03, 0x00,
        0xCD, 0x0C]) = true := by decide

/-- Set E4. -/
theorem test_encF32 :
    nextIs (exec .encF32 (withSamples [0x3DCCCCCD, 0x40200000, 0x80000000, 0x7F800001])) (fun t =>
      t.obLen == 16 && obytes t 16 == [0xCD, 0xCC, 0xCC, 0x3D, 0x00, 0x00, 0x80, 0x3F, 0x00, 0x00,
        0x00, 0x80, 0x01, 0x00, 0x80, 0x7F]) = true := by decide

/-- R207. -/
theorem test_encS8Sq :
    nextIs (exec .encS8Sq (withSamples [0x3A83126F, 0xC0400000, 0x00000000])) (fun t =>
      obytes t 3 == [0x7F, 0x80, 0xFF]) = true := by decide

/-- R208. -/
theorem test_encU8Sq :
    nextIs (exec .encU8Sq (withSamples [0x3A83126F, 0xC0400000, 0x00000000])) (fun t =>
      obytes t 3 == [0xFF, 0x00, 0x7F]) = true := by decide

/-- R209. -/
theorem test_encI16Sq :
    nextIs (exec .encI16Sq (withSamples [0x3A83126F, 0xC0400000, 0x00000000])) (fun t =>
      obytes t 6 == [0xFF, 0x7F, 0x01, 0x80, 0x00, 0x00]) = true := by decide

/-- R210, and set E5 for the least positive subnormal. -/
theorem test_encF32Sq :
    nextIs (exec .encF32Sq (withSamples [0x00000001, 0xC0400000, 0x80000000])) (fun t =>
      obytes t 12 == [0x00, 0x00, 0x80, 0x3F, 0x00, 0x00, 0x80, 0xBF, 0x00, 0x00, 0x00, 0x80])
      = true := by decide

/-! ## Streaming Driver -/

/-- Program P1, step 1. -/
theorem test_start :
    nextIs (exec .start cfgP1) (fun t => t.drvState == .running && t.phase == 1) = true := by decide

/-- Program P5: `STATUS` and `EXIT_STATUS` after the configuration error. -/
theorem test_start_fault :
    nextIs (exec .start { cfgP1 with mode := 0x00001725, deviation := 0 }) (fun t =>
      hostReadCR t 1 == 0x00000013 && t.exitStatus == 1 && t.trace == [.errReport]) = true := by decide

/-- Program P1, step 4: seven bytes arrive; an old byte beyond them stays. -/
theorem test_read :
    nextIs (exec .read { at_ 3 with
        srcReplies := [.ok 8192], inRest := [0x00, 0xFF, 0x80, 0x00, 0x7F, 0x09, 0xC8]
        buf := [(7, 0x55)] }) (fun t =>
      t.bufLen == 7 && t.last && t.inRest == [] && byteAt t .buf 6 == 0xC8 && byteAt t .buf 7 == 0x55)
      = true := by decide

/-- Set F. -/
theorem test_read_fault :
    nextIs (exec .read { at_ 3 with srcReplies := [.err], bufLen := 5 }) (fun t =>
      hostReadCR t 1 == 0x0000032B && t.bufLen == 5) = true := by decide

/-- Program P1, step 10. -/
theorem test_write :
    nextIs (exec .write { at_ 9 with
        snkReplies := [.ok, .ok], obuf := Memory.cells 0 [0x00, 0x80, 0x7F, 0x11], obLen := 3 }) (fun t =>
      t.outAcc == [0x00, 0x80, 0x7F] && t.phase == 10 && t.snkReplies == [.ok]) = true := by decide

/-- Set F. -/
theorem test_write_fault :
    nextIs (exec .write { at_ 9 with snkReplies := [.err] }) (fun t =>
      hostReadCR t 1 == 0x0000093B) = true := by decide

/-- Program P1, step 11. -/
theorem test_flush :
    nextIs (exec .flush { at_ 10 with snkReplies := [.ok], outAcc := [0x00, 0x80, 0x7F] }) (fun t =>
      t.flushed == 3 && t.phase == 11) = true := by decide

/-- Set F. -/
theorem test_flush_fault :
    nextIs (exec .flush { at_ 10 with snkReplies := [.err] }) (fun t =>
      hostReadCR t 1 == 0x00000A3B) = true := by decide

/-- R240 and the table of S7: the answers of an honest source, one for each iteration. -/
theorem test_honestReplies :
    (honestReplies 0).length = 1 ∧ (honestReplies 8191).length = 1 ∧ (honestReplies 8192).length = 2 ∧
    (honestReplies 20000).length = 3 := by decide

/-- Set V: 8192 bytes, and fewer. -/
theorem test_next :
    nextIs (exec .next { at_ 11 with last := false }) (fun t =>
      t.phase == 3 && t.drvState == .running) = true ∧
    nextIs (exec .next { at_ 11 with last := true, exitStatus := 9 }) (fun t =>
      t.phase == 11 && t.drvState == .stopped && t.exitStatus == 0) = true := by decide

/-! ## Witnesses: the hypotheses of each statement are met, at the ends of their ranges

A statement not named here has no hypotheses. -/

/-- `ReservedWordsRefused`: both ends of each range, their neighbours outside, and a word issued. -/
theorem witness_ReservedWordsRefused :
    (∀ w ∈ [0x04, 0x07, 0x12, 0x17, 0x20, 0xFF], ∀ i, decodeWord w ≠ .ok i) ∧
    (decodeWord 0x03 = .ok .decF32 ∧ decodeWord 0x08 = .ok .encS8 ∧ decodeWord 0x11 = .ok .init ∧
      decodeWord 0x18 = .ok .start ∧ decodeWord 0x1F = .ok .next) ∧
    issue (at_ 4) = .run 0x01 (at_ 4) := by
  refine ⟨?_, by decide, by decide⟩
  intro w hw i h
  simp only [List.mem_cons, List.mem_nil_iff, or_false] at hw
  rcases hw with rfl | rfl | rfl | rfl | rfl | rfl <;> cases h

/-- `StepRunsDecodedOperation`. -/
theorem witness_StepRunsDecodedOperation :
    ((at_ 8).drvState = .running ∧ opword (at_ 8).phase (at_ 8).mode = some 0x09 ∧
      decode [0x09, 0xAA] = .ok (.encU8, [0xAA])) ∧
    ({ cfgP1 with startReq := true } : State).drvState = .idle := by decide

/-- `SequencerRests`: phases 12 and 15 (phase 11 has an operation). -/
theorem witness_SequencerRests :
    ({ at_ 11 with drvState := .stopped } : State).drvState = .stopped ∧
    ({ at_ 3 with drvState := .failed } : State).drvState = .failed ∧
    (cfgP1.drvState = .idle ∧ cfgP1.startReq = false) ∧
    ((at_ 12).drvState = .running ∧ 12 ≤ (at_ 12).phase.toNat) ∧ 12 ≤ (at_ 15).phase.toNat ∧
    opword 11 0 = some 0x1F := by decide

/-- `PhaseSelectsOperation`: the first and the last phase, and the two that depend on `MODE`. -/
theorem witness_PhaseSelectsOperation :
    (at_ 0).drvState = .running ∧ opOfPhase (at_ 0).phase.toNat (at_ 0).mode = some .start ∧
    opOfPhase (at_ 4).phase.toNat (at_ 4).mode = some .decU8 ∧
    opOfPhase (at_ 8).phase.toNat 0x1C = some .encF32Sq ∧
    opOfPhase (at_ 11).phase.toNat (at_ 11).mode = some .next := by decide

/-- `ControlTransfers`: waiting, forward, back, stop, abort; the start and its abort. -/
theorem witness_ControlTransfers :
    nextIs (step (at_ 3)) (fun t => t.phase == 3) = true ∧
    nextIs (step (at_ 4)) (fun t => t.phase == 5) = true ∧
    nextIs (step (at_ 11)) (fun t => t.phase == 3) = true ∧
    nextIs (step { at_ 11 with last := true }) (fun t => t.drvState == .stopped) = true ∧
    nextIs (step { at_ 3 with srcReplies := [.err] }) (fun t => t.drvState == .failed) = true ∧
    nextIs (step { cfgP1 with startReq := true }) (fun t => t.phase == 1) = true ∧
    nextIs (step { State.reset with startReq := true }) (fun t => t.drvState == .failed) = true := by
  decide

/-- `ResetAbandonsRun`: a running state at another phase, and a state at phase 9 that does not run. -/
theorem witness_ResetAbandonsRun :
    ((at_ 8).drvState ≠ .running ∨ (at_ 8).phase ≠ 9) ∧
    (({ at_ 9 with drvState := .failed } : State).drvState ≠ .running ∨ (at_ 9).phase ≠ 9) := by decide

/-- `HostWritesRegisters`. -/
theorem witness_HostWritesRegisters :
    cfgP1.drvState = .idle ∧ cfgP1.startReq = false ∧ (0x00000001 : Word).getLsbD 0 = true ∧
    (0xFFFFFFFE : Word).getLsbD 0 = false := by decide

/-- `HostReadsParameters`: before and after `DERIVE`. -/
theorem witness_HostReadsParameters : (at_ 2).pvalid = true ∧ cfgP1.pvalid = false := by decide

/-- `ConfigurationFrozen`: outside `IDLE`; a step of phase 1 and one of another phase, with parameters
valid. -/
theorem witness_ConfigurationFrozen :
    (at_ 1).drvState ≠ .idle ∧ ({ at_ 11 with drvState := .stopped } : State).drvState ≠ .idle ∧
    nextIs (step (at_ 1)) (fun t => t.pvalid) = true ∧
    nextIs (step (at_ 4)) (fun t => t.pvalid) = true ∧ (at_ 4).pvalid = true := by decide

/-- `DecSamplesFromBytes`: the only group of a chunk of its own width. -/
theorem witness_DecSamplesFromBytes :
    0 < (withChunk [1, 2]).bufLen / 2 ∧ 0 < (withChunk [1, 2, 3, 4]).bufLen / 4 ∧
    0 < (withChunk [1, 2, 3, 4, 5, 6, 7, 8]).bufLen / 8 := by decide

/-- `DecodeLaws`: the longest remainder, and the empty one. -/
theorem witness_DecodeLaws :
    ([1, 2, 3, 4] : List Byte).length % wIn .i16 = 0 ∧ ([5, 6, 7] : List Byte).length < wIn .i16 ∧
    ([] : List Byte).length % wIn .f32 = 0 ∧ ([] : List Byte).length < wIn .s8 := by decide

/-- `DecodedRange`: a sample at both ends of the range. -/
theorem witness_DecodedRange :
    SampleType.u8 ≠ .f32 ∧ ⟨0xBF800000, 0x3F800000⟩ ∈ decodeSamples .u8 [0x00, 0xFF] := by decide

/-- `EightBitDecodeMaps` and `I16DecodeExact`: the last codes. -/
theorem witness_codes : 255 < 256 ∧ 254 < 255 ∧ 65535 < 65536 := by decide

/-- `F32CodecCopies`: a NaN, both ends of the range, the two zeros. -/
theorem witness_F32CodecCopies :
    isNaN 0x7F800001 = true ∧
    (fLt 0x3F800000 fMinusOne = false ∧ fGt 0x3F800000 fOne = false) ∧
    (fLt 0xBF800000 fMinusOne = false ∧ fGt 0xBF800000 fOne = false) ∧
    (fLt 0x80000000 fMinusOne = false ∧ fGt 0x80000000 fOne = false) := by decide

/-- `RoundingIsNearestEven`: a tie that goes to the even neighbour, and the first overflow; finite
operands whose sum is exactly zero, negative and positive, and a divisor that is not zero. -/
theorem witness_RoundingIsNearestEven :
    0 < 2 ∧ roundMag 3 2 = 2 ∧ roundMag 5 2 = 2 ∧ 2 < infMag ∧ 3 < infMag ∧
    roundMag ((2 ^ 25 - 1) * 2 ^ 252) 1 = infMag ∧
    roundMag ((2 ^ 25 - 1) * 2 ^ 252 - 1) 1 = infMag - 1 ∧
    (isFinite 0x7F7FFFFF = true ∧ isFinite 0x80000000 = true ∧
      units 0x80000000 + units 0x80000000 = 0 ∧ units 0x3F800000 + units 0xBF800001 < 0 ∧
      0 < units 0x3F800000 - units 0xBF800001 ∧ units 0x00000001 ≠ 0) := by decide

/-- `ArithmeticSpecialValues`: NaN operands; finite operands, the greatest and the zeros; divisors. -/
theorem witness_ArithmeticSpecialValues :
    isNaN 0x7FC00000 = true ∧ isNaN 0xFF800001 = true ∧ isFinite 0x7F7FFFFF = true ∧
    isFinite 0x80000000 = true ∧ (isFinite 0x00000001 = true ∧ fMag 0x00000001 ≠ 0) := by decide

/-- `ExactConversionAndDoubling`: the greatest magnitudes. -/
theorem witness_ExactConversionAndDoubling :
    Int.natAbs (-16777216) ≤ 2 ^ 24 ∧ Int.natAbs 0 ≤ 2 ^ 24 ∧ fMag 0xFEFFFFFF < 0x7F000000 := by decide

/-- `OrderIsOrderOfValues`: the two zeros, two neighbours, a NaN. -/
theorem witness_OrderIsOrderOfValues :
    isFinite 0x00000000 = true ∧ isFinite 0x80000000 = true ∧ units 0x80000000 = units 0x00000000 ∧
    units 0xBF800001 < units 0xBF800000 ∧ isNaN 0x7F800001 = true := by decide

/-- `ShapingResults`: one value for each clause, at the ends of its range. -/
theorem witness_ShapingResults :
    isNaN 0x7FC00000 = true ∧
    (isFinite 0x3F800000 = true ∧ units 0x3F800000 = 2 ^ 149 ∧ units 0xBF800000 = -(2 ^ 149 : Int)) ∧
    (isFinite 0x3F800001 = true ∧ 2 ^ 149 < units 0x3F800001) ∧
    (isFinite 0xBF800001 = true ∧ units 0xBF800001 < -(2 ^ 149 : Int)) ∧
    0 < units 0x00000001 ∧ units 0x80000001 < 0 ∧ units 0x80000000 = 0 := by decide

/-- `RoundHalfAwayFromZero`: a tie, an infinity, a NaN. -/
theorem witness_RoundHalfAwayFromZero :
    isFinite 0xBF000000 = true ∧ isInf 0xFF800000 = true ∧ isNaN 0x7F800001 = true := by decide

/-- `EncoderCastsInRange`: the infinities are no NaN. -/
theorem witness_EncoderCastsInRange : isNaN 0x7F800000 = false ∧ isNaN 0xFF800000 = false := by decide

/-- `DeriveResult`: the check passes with and without a resample rate, and fails. -/
theorem witness_DeriveResult :
    ratesOk cfgP1 = true ∧
    (cfgP1.mode.getLsbD 10 = true ∧ cfgP1.mode.getLsbD 12 = true ∧ cfgP1.mode.getLsbD 13 = true ∧
      cfgP1.samplerate ≠ 0 ∧ cfgP1.bandwidth ≠ 0 ∧ cfgP1.deviation ≠ 0 ∧
      cfgP1.mode.getLsbD 11 = false) ∧
    ((0x00003F25 : Word).getLsbD 11 = true ∧ cfgP1.resamplerate = 0) := by decide

/-- `DerivedParameterRanges` and `EqualRatesAreNoResampling`: the least and the greatest rate. -/
theorem witness_rates : (1 : Word) ≠ 0 ∧ (0xFFFFFFFF : Word) ≠ 0 := by decide

/-- `InitCreatesChain`: four answers, and each failure in its turn. -/
theorem witness_InitCreatesChain :
    (let s := { at_ 2 with tcs := none, tcFacts := createFacts }
     s.tcReady = true ∧ s.pvalid = true ∧
     tcCreateFilter s s.pr.taps.toNat s.pr.cutoff s.pr.atten s.pr.center = some ⟨7⟩ ∧
     tcFilterSetGain s ⟨7⟩ s.pr.gain = some ⟨1⟩ ∧
     tcCreateResampler s s.pr.ratio s.pr.atten = some ⟨2⟩ ∧
     tcCreateFmDemodulator s s.pr.sens = some ⟨3⟩) ∧
    (let s := { at_ 2 with tcFacts := { createFacts with
       createFilter := [((64, 0x3DCCCCCD, 0x428C0000, 0x00000000), none)] } }
     tcCreateFilter s s.pr.taps.toNat s.pr.cutoff s.pr.atten s.pr.center = none) ∧
    (let s := { at_ 2 with tcFacts := { createFacts with
       filterSetGain := [((⟨7⟩, 0x3E4CCCCD), none)] } }
     tcFilterSetGain s ⟨7⟩ s.pr.gain = none) ∧
    (let s := { at_ 2 with tcFacts := { createFacts with
       createResampler := [((0x3F800000, 0x428C0000), none)] } }
     tcCreateResampler s s.pr.ratio s.pr.atten = none) ∧
    (let s := { at_ 2 with tcFacts := { createFacts with createFmDemodulator := [(0x3D19999A, none)] } }
     tcCreateFmDemodulator s s.pr.sens = none) := by decide

/-- `FilterResult` and the filter's clauses of `ChainKeepsLengths`. -/
theorem witness_FilterResult :
    (stage 5 passFacts).tcs = some chain ∧ (stage 5 passFacts).tcReady = true ∧
    tcFilterApply (stage 5 passFacts) chain.filt (cbufIn (stage 5 passFacts)) = some (⟨11⟩, samples1) ∧
    tcFilterApply (stage 5 failFacts) chain.filt (cbufIn (stage 5 failFacts)) = none := by decide

/-- `ResampleResult`: as many samples as `M_CAP`, one more, and a failure. -/
theorem witness_ResampleResult :
    (stage 6 passFacts).tcs = some chain ∧ (stage 6 passFacts).tcReady = true ∧
    tcResamplerProcess (stage 6 passFacts) chain.rs (cbufIn (stage 6 passFacts))
      = some (⟨12⟩, samples1) ∧
    samples1.length ≤ 3 ∧ 2 < samples1.length ∧
    tcResamplerProcess (stage 6 failFacts) chain.rs (cbufIn (stage 6 failFacts)) = none := by decide

/-- `DemodResult` and the demodulator's clauses of `ChainKeepsLengths`. -/
theorem witness_DemodResult :
    (stage 7 passFacts).tcs = some chain ∧ (stage 7 passFacts).tcReady = true ∧
    tcDemodProcess (stage 7 passFacts) chain.dm (rcbufIn (stage 7 passFacts))
      = some (⟨13⟩, [0xBF800000, 0x3B808100, 0xBB808080]) ∧
    tcDemodProcess (stage 7 failFacts) chain.dm (rcbufIn (stage 7 failFacts)) = none := by decide

/-- `ChainKeepsLengths`, the clauses on what is fixed for a run: a step to a next state, and a state
outside `IDLE`. -/
theorem witness_ChainKeepsLengths :
    nextIs (step (stage 5 passFacts)) (fun t => t.tcFacts == passFacts) = true ∧
    (stage 5 passFacts).drvState ≠ .idle := by decide

/-- `WaitsAndMissingChain`. -/
theorem witness_WaitsAndMissingChain :
    (at_ 3).srcReplies = [] ∧ (at_ 9).snkReplies = [] ∧
    (({ at_ 5 with tcReady := false } : State).tcReady = false ∧ (at_ 5).tcs ≠ none) ∧
    cfgP1.tcs = none := by decide

/-- `EncBytesPlaced`: the last byte of the last sample. -/
theorem witness_EncBytesPlaced :
    (rbufIn (withSamples [0x3F800000, 0xBF800000]))[1]? = some 0xBF800000 ∧ 3 < wOut .f32 := by decide

/-- `ClampingLaw`: the ends, values beyond, the infinities. -/
theorem witness_ClampingLaw :
    (isNaN 0x3F800000 = false ∧ fLt 0x3F800000 fOne = false) ∧
    (isNaN 0x7F800000 = false ∧ fLt 0x7F800000 fOne = false) ∧
    (isNaN 0xBF800000 = false ∧ fGt 0xBF800000 fMinusOne = false) ∧
    (isNaN 0xFF800000 = false ∧ fGt 0xFF800000 fMinusOne = false) := by decide

/-- `SquareWaveLaw`: the least values on each side, and the zeros. -/
theorem witness_SquareWaveLaw :
    fGt 0x00000001 fZero = true ∧ fLt 0x80000001 fZero = true ∧ fMag 0x80000000 = 0 ∧
    fMag 0x00000000 = 0 := by decide

/-- `NanSamples`: a quiet and a signalling NaN. -/
theorem witness_NanSamples : isNaN 0x7FC00000 = true ∧ isNaN 0xFF800001 = true := by decide

/-- `StartResult`: the configuration of P1 passes; without a deviation, or with a zero rate, it fails. -/
theorem witness_StartResult :
    ((cfgP1.mode.getLsbD 10 = true ∧ cfgP1.samplerate ≠ 0) ∧ cfgP1.mode.getLsbD 8 = true ∧
      cfgP1.mode.getLsbD 9 = true ∧ (cfgP1.mode.getLsbD 12 = true ∧ cfgP1.bandwidth ≠ 0) ∧
      cfgP1.mode.getLsbD 5 = true ∧ (cfgP1.mode.getLsbD 13 = true ∧ cfgP1.deviation ≠ 0) ∧
      (cfgP1.mode.getLsbD 11 = false ∨ cfgP1.resamplerate ≠ 0)) ∧
    (0x00001729 : Word).getLsbD 13 = false ∧
    ((0x00003F25 : Word).getLsbD 11 = true ∧ cfgP1.resamplerate = 0) := by decide

/-- `ReadStoresChunk` and `ReadFailure`. -/
theorem witness_reads :
    ({ at_ 3 with srcReplies := [.ok 0] } : State).srcReplies = .ok 0 :: [] ∧
    ({ at_ 3 with srcReplies := [.ok 8193, .err] } : State).srcReplies = .ok 8193 :: [.err] ∧
    ({ at_ 3 with srcReplies := [.err] } : State).srcReplies = .err :: [] := by decide

/-- `WriteResult` and `FlushResult`. -/
theorem witness_writes :
    ({ at_ 9 with snkReplies := [.ok] } : State).snkReplies = .ok :: [] ∧
    ({ at_ 9 with snkReplies := [.err, .ok] } : State).snkReplies = .err :: [.ok] := by decide

/-- `NextResult`. -/
theorem witness_NextResult :
    ({ at_ 11 with drvState := .stopped } : State).drvState = .stopped ∧ (at_ 11).last = false ∧ ({ at_ 11 with last := true } : State).last = true := by decide

/-- `FaultsByOperation`: a fault of each code, taken by an operation from a running state. -/
theorem witness_FaultsByOperation :
    (at_ 3).drvState ≠ .failed ∧
    nextIs (exec .derive { at_ 1 with mode := 0 }) (fun t => t.drvState == .failed) = true ∧
    nextIs (exec .read { at_ 3 with srcReplies := [.err] }) (fun t => t.drvState == .failed) = true ∧
    nextIs (exec .flush { at_ 10 with snkReplies := [.err] }) (fun t => t.drvState == .failed) = true ∧
    nextIs (exec .demod (stage 7 failFacts)) (fun t => t.drvState == .failed) = true := by decide

/-- `CodecFrame`: the operations answer a next state. -/
theorem witness_CodecFrame :
    (∃ u, exec (decOf .f32) (withChunk [1, 2]) = .next u) ∧
    (∃ u, exec (encOf .s8 true) (withSamples [0]) = .next u) := ⟨⟨_, rfl⟩, ⟨_, rfl⟩⟩

/-- `PortFrame`: each operation answers a next state; elements at the first place that is kept. -/
theorem witness_PortFrame :
    (∀ i ∈ [Instr.start, .derive, .read, .write, .flush, .next],
      nextIs (exec i { at_ 3 with srcReplies := [.ok 0], snkReplies := [.ok] }) (fun _ => true) = true) ∧
    nextIs (exec .init { at_ 2 with tcFacts := createFacts }) (fun _ => true) = true ∧
    (∀ i ∈ [Instr.filter, .resample, .demod],
      nextIs (exec i (stage 5 passFacts)) (fun _ => true) = true) ∧
    nextIs (exec .filter { stage 5 passFacts with cbuf := samples1 ++ [⟨5, 6⟩] }) (fun t =>
      t.cbuf[(stage 5 passFacts).nc]? == some ⟨5, 6⟩) = true ∧
    nextIs (exec .resample { stage 6 passFacts with rcbuf := samples1 ++ [⟨5, 6⟩] }) (fun t =>
      t.rcbuf[t.m]? == some ⟨5, 6⟩) = true ∧
    nextIs (exec .demod { stage 7 passFacts with rbuf := [1, 2, 3, 4] }) (fun t =>
      t.rbuf[(stage 7 passFacts).m]? == some 4) = true := by decide

/-- Program P1 as it stands before `WRITE`. -/
def beforeWrite : State := { at_ 9 with
  buf := Memory.cells 0 [0x00, 0xFF, 0x80, 0x00, 0x7F, 0x09, 0xC8], bufLen := 7, last := true
  cbuf := samples1, nc := 3, rcbuf := samples1, m := 3
  rbuf := [0xBF800000, 0x3B808100, 0xBB808080], obuf := Memory.cells 0 [0x00, 0x80, 0x7F], obLen := 3
  snkReplies := [.ok, .ok]
  trace := setupEvents ++ [.srcRead 8192, .filterApply, .resamplerProcess, .demodProcess] }

/-- `InvariantsKeptByStep`, `InvariantsKeptByHost`, `NoStopFromInvariant`: a running state meets the
invariants. -/
theorem witness_Inv : beforeWrite.Inv where
  bufWf := by decide
  obufWf := by decide
  bufCap := by decide
  bufLen_le := by decide
  nc_le := by decide
  m_fits := by decide
  bufWritten := by unfold Written; decide
  obufWritten := by unfold Written; decide
  cbufWritten := by decide
  rcbufWritten := by decide
  rbufWritten := by decide
  modeReserved := by decide
  phase_le := by decide
  idlePhase := by decide
  runningPhase := by decide
  stoppedAt := by decide
  failed_iff := by decide
  faultCode_le := by decide
  failedExit := by decide
  startIdle := by decide
  cfgValid := by decide
  pvalidFrom := by decide
  chainFrom := by decide
  lastIs := by decide
  ncIs := by decide
  obLenIs := by decide
  flushed_le := by decide

/-- `PortOrderKeptByStep`: the same state meets the order of transactions, and steps on. -/
theorem witness_TraceInv : beforeWrite.TraceInv ∧
    nextIs (step beforeWrite) (fun t => t.outAcc == [0x00, 0x80, 0x7F]) = true :=
  ⟨⟨fun _ h => absurd h (by decide), fun _ _ => ⟨0, by decide⟩, fun h => absurd h (by decide)⟩, by decide⟩

/-- `OneIteration`: program P1 before `READ`, with `TC_PASS` on its samples. -/
theorem witness_OneIteration :
    let s : State := { at_ 3 with
      tcFacts := passFacts, srcReplies := [.ok 8192], snkReplies := [.ok, .ok]
      inRest := [0x00, 0xFF, 0x80, 0x00, 0x7F, 0x09, 0xC8] }
    s.drvState = .running ∧ s.phase = 3 ∧ s.tcReady = true ∧ s.tcs = some chain ∧
    s.srcReplies = .ok 8192 :: [] ∧ s.snkReplies = .ok :: .ok :: [] ∧
    tcFilterApply s chain.filt (decodeSamples (modeIntype s.mode) (delivered s 8192))
      = some (⟨11⟩, samples1) ∧
    tcResamplerProcess s chain.rs samples1 = some (⟨12⟩, samples1) ∧
    fitsCap s.mCap samples1.length = true ∧
    tcDemodProcess s chain.dm samples1 = some (⟨13⟩, [0xBF800000, 0x3B808100, 0xBB808080]) := by decide

end Sys2Proof.Tests
end

section
/-! # The sequencer and what each operation can do

The word of each phase decodes to the operation the table of R32 names; and, for each operation, one
lemma lists what a next state can be. Every later proof goes through these. -/

namespace Sys2Proof.Machine

variable {s t : State}

/-! ## The operation of a phase -/

/-- The word of phase 4 is that of `DEC` at its type code (R105). -/
theorem decodeWord_dec : ∀ c : BitVec 2,
    decodeWord (0x00 ||| c.zeroExtend 8) = .ok (decOf (typeOfCode c)) := by decide

/-- The word of phase 8 is that of `ENC` at its type code and shaping (R105). -/
theorem decodeWord_enc : ∀ (q : BitVec 1) (c : BitVec 2),
    decodeWord (0x08 ||| (q.zeroExtend 8 <<< 2) ||| c.zeroExtend 8) =
      .ok (encOf (typeOfCode c) (q.getLsbD 0)) := by decide

/-- `MODE.SQ` as a bit and as a field of one bit. -/
theorem getLsbD_modeSqField (mode : Word) : (mode.extractLsb' 4 1).getLsbD 0 = modeSq mode := by
  simp [modeSq]

theorem phaseOf_decOf (τ : SampleType) : phaseOf (decOf τ) = 4 := by cases τ <;> rfl

theorem phaseOf_encOf (τ : SampleType) (sq : Bool) : phaseOf (encOf τ sq) = 8 := by
  cases τ <;> cases sq <;> rfl

/-- The table of R32 read backwards. -/
theorem phase_of_opOfPhase {p : BitVec 4} {mode : Word} {i : Instr}
    (h : opOfPhase p.toNat mode = some i) : p = phaseOf i := by
  unfold opOfPhase at h
  split at h <;> cases h
  case h_5 hp => exact (BitVec.eq_of_toNat_eq hp).trans (phaseOf_decOf _).symm
  case h_9 hp => exact (BitVec.eq_of_toNat_eq hp).trans (phaseOf_encOf _ _).symm
  all_goals exact BitVec.eq_of_toNat_eq (by assumption)

/-- The word the sequencer forms is the word of the operation the table of R32 names. -/
theorem opword_of_opOfPhase {p : BitVec 4} {mode : Word} {i : Instr}
    (h : opOfPhase p.toNat mode = some i) : ∃ w, opword p mode = some w ∧ decodeWord w = .ok i := by
  have hp := phase_of_opOfPhase h
  unfold opOfPhase at h
  split at h <;> cases h
  case h_5 =>
    rw [hp, phaseOf_decOf]
    exact ⟨_, rfl, decodeWord_dec _⟩
  case h_9 =>
    rw [hp, phaseOf_encOf]
    refine ⟨_, rfl, ?_⟩
    rw [decodeWord_enc, getLsbD_modeSqField]
    rfl
  all_goals
    rw [hp]
    exact ⟨_, rfl, rfl⟩

/-- A phase that has a word has an operation. -/
theorem opOfPhase_isSome {p : Nat} (mode : Word) (h : p ≤ 11) : ∃ i, opOfPhase p mode = some i := by
  interval_cases p <;> exact ⟨_, rfl⟩

/-- From phase 12 on no word is formed. -/
theorem opword_eq_none {p : BitVec 4} (mode : Word) (h : 12 ≤ p.toNat) : opword p mode = none := by
  unfold opword
  split
  case h_13 => rfl
  all_goals omega

/-- A decoded word is executed. -/
theorem runWord_of_decodeWord {w : BitVec 8} {i : Instr} (hd : decodeWord w = .ok i) (s : State) :
    runWord w s = exec i s := by
  simp [runWord, decode, hd]

theorem step_of_opword {w : BitVec 8} {i : Instr} (hr : s.drvState = .running)
    (hw : opword s.phase s.mode = some w) (hd : decodeWord w = .ok i) : step s = exec i s := by
  simp [step, issue, hr, hw, runWord_of_decodeWord hd]

/-- In `RUNNING` a step is the operation of the phase. -/
theorem step_of_running {i : Instr} (hr : s.drvState = .running)
    (hi : opOfPhase s.phase.toNat s.mode = some i) : step s = exec i s := by
  obtain ⟨w, hw, hd⟩ := opword_of_opOfPhase hi
  exact step_of_opword hr hw hd

/-- In `IDLE` a waiting START command is taken and executed. -/
theorem step_of_startReq (hi : s.drvState = .idle) (hq : s.startReq = true) :
    step s = exec .start (takeStart s) := by
  simp only [step, issue, hi, hq, if_true]
  exact runWord_of_decodeWord rfl _

/-- Where the sequencer issues nothing, a step rests. -/
theorem step_of_wait (h : issue s = .wait) : step s = .next s := by simp [step, h]

/-- In `RUNNING` a step that answers a next state is the operation of its phase. -/
theorem step_running_cases (hr : s.drvState = .running) (h : step s = .next t) :
    ∃ i, opOfPhase s.phase.toNat s.mode = some i ∧ exec i s = .next t := by
  by_cases hp : s.phase.toNat ≤ 11
  · obtain ⟨i, hi⟩ := opOfPhase_isSome s.mode hp
    exact ⟨i, hi, by rwa [step_of_running hr hi] at h⟩
  · simp [step, issue, hr, opword_eq_none s.mode (show 12 ≤ s.phase.toNat by omega)] at h

/-- What a step can be: it rests, it takes a START command, or it is the operation of its phase. -/
theorem step_cases (h : step s = .next t) :
    t = s ∨
    (s.drvState = .idle ∧ s.startReq = true ∧ exec .start (takeStart s) = .next t) ∨
    (s.drvState = .running ∧ ∃ i, opOfPhase s.phase.toNat s.mode = some i ∧ exec i s = .next t) := by
  cases hd : s.drvState with
  | running => exact .inr (.inr ⟨rfl, step_running_cases hd h⟩)
  | idle =>
    cases hq : s.startReq with
    | true => exact .inr (.inl ⟨rfl, rfl, by rwa [step_of_startReq hd hq] at h⟩)
    | false =>
      rw [step_of_wait (by simp [issue, hd, hq])] at h
      exact .inl (by injection h with h; exact h.symm)
  | stopped =>
    rw [step_of_wait (by simp [issue, hd])] at h
    exact .inl (by injection h with h; exact h.symm)
  | failed =>
    rw [step_of_wait (by simp [issue, hd])] at h
    exact .inl (by injection h with h; exact h.symm)

/-! ## The next states of each operation -/

theorem exec_start_cases (h : exec .start s = .next t) :
    (okCfg s = true ∧ t = { s with drvState := .running, phase := 1 }) ∨
    (okCfg s = false ∧ t = raiseFault fConfig s) := by
  simp only [exec, execStart] at h
  cases hc : okCfg s <;> simp [hc] at h <;> simp [h]

theorem exec_derive_cases (h : exec .derive s = .next t) :
    (ratesOk s = true ∧ t = advance { s with pr := derivedPr s, pvalid := true }) ∨
    (ratesOk s = false ∧ t = raiseFault fConfig s) := by
  simp only [exec, execDerive] at h
  cases hc : ratesOk s <;> simp [hc] at h <;> simp [h]

/-- `INIT` waits, creates the chain, or fails after some of its four calls. -/
theorem exec_init_cases (h : exec .init s = .next t) :
    t = s ∨
    (∃ c, t = advance { s with
      draws := prDraws s, trace := s.trace ++ setupEvents, tcs := some c }) ∨
    (∃ n, 1 ≤ n ∧ n ≤ 4 ∧ t = raiseFault fXform { s with
      draws := prDraws s, trace := s.trace ++ setupEvents.take n }) := by
  simp only [exec, execInit] at h
  split at h <;> injection h with h <;> subst h
  · rcases createChain_cases (prValues s) { s with draws := prDraws s } with
      ⟨f0, f1, r0, d0, -, -, -, -, hc⟩ | hc
    · exact .inr (.inl ⟨_, hc⟩)
    · exact .inr (.inr hc)
  · exact .inl rfl

/-- `FILTER` waits, stores the answer of its call, or fails. -/
theorem exec_filter_cases (h : exec .filter s = .next t) :
    ∃ c, s.tcs = some c ∧
      (t = s ∨
      (∃ f' y, tcFilterApply s c.filt (cbufIn s) = some (f', y) ∧ t = advance { s with
        trace := s.trace ++ [.filterApply], tcs := some { c with filt := f' },
        cbuf := writeArray s.cbuf y }) ∨
      t = raiseFault fXform { s with trace := s.trace ++ [.filterApply] }) := by
  simp only [exec, execFilter] at h
  split at h
  · cases h
  · next c hc =>
    refine ⟨c, hc, ?_⟩
    split at h <;> injection h with h <;> subst h
    · rcases filterStage_cases c s with hok | ⟨-, hf⟩
      · exact .inr (.inl hok)
      · exact .inr (.inr hf)
    · exact .inl rfl

/-- `RESAMPLE` waits, stores the answer of its call, or fails. -/
theorem exec_resample_cases (h : exec .resample s = .next t) :
    ∃ c, s.tcs = some c ∧
      (t = s ∨
      (∃ r' z, tcResamplerProcess s c.rs (cbufIn s) = some (r', z) ∧ fitsCap s.mCap z.length = true ∧
        t = advance { s with
          trace := s.trace ++ [.resamplerProcess], tcs := some { c with rs := r' }, m := z.length,
          rcbuf := writeArray s.rcbuf z }) ∨
      t = raiseFault fXform { s with trace := s.trace ++ [.resamplerProcess] }) := by
  simp only [exec, execResample] at h
  split at h
  · cases h
  · next c hc =>
    refine ⟨c, hc, ?_⟩
    split at h <;> injection h with h <;> subst h
    · exact .inr (resampleStage_cases c s)
    · exact .inl rfl

/-- `DEMOD` waits, stores the answer of its call, or fails. -/
theorem exec_demod_cases (h : exec .demod s = .next t) :
    ∃ c, s.tcs = some c ∧
      (t = s ∨
      (∃ d' x, tcDemodProcess s c.dm (rcbufIn s) = some (d', x) ∧ t = advance { s with
        trace := s.trace ++ [.demodProcess], tcs := some { c with dm := d' },
        rbuf := writeArray s.rbuf x }) ∨
      t = raiseFault fXform { s with trace := s.trace ++ [.demodProcess] }) := by
  simp only [exec, execDemod] at h
  split at h
  · cases h
  · next c hc =>
    refine ⟨c, hc, ?_⟩
    split at h <;> injection h with h <;> subst h
    · rcases demodStage_cases c s with hok | ⟨-, hf⟩
      · exact .inr (.inl hok)
      · exact .inr (.inr hf)
    · exact .inl rfl

/-- `READ` waits, stores what its answer delivers, or fails. -/
theorem exec_read_cases (h : exec .read s = .next t) :
    t = s ∨
    (∃ n rest, s.srcReplies = .ok n :: rest ∧ t = storeChunk (delivered s n) { s with
      srcReplies := rest, trace := s.trace ++ [.srcRead Config.bufferSize] }) ∨
    (∃ rest, s.srcReplies = .err :: rest ∧ t = raiseFault fRead { s with
      srcReplies := rest, trace := s.trace ++ [.srcRead Config.bufferSize]
      inRest := s.inRest.drop (Config.drawNat s.draws), draws := s.draws + 1 }) := by
  simp only [exec, execRead] at h
  split at h <;> injection h with h <;> subst h
  · exact .inl rfl
  · next hr => exact .inr (.inl ⟨_, _, hr, rfl⟩)
  · next hr => exact .inr (.inr ⟨_, hr, rfl⟩)

/-- `WRITE` waits, hands over all of `OBUF`, or fails after a part of it. -/
theorem exec_write_cases (h : exec .write s = .next t) :
    t = s ∨
    (∃ rest, s.snkReplies = .ok :: rest ∧ t = advance { s with
      snkReplies := rest, trace := s.trace ++ [.snkWrite s.obLen]
      outAcc := s.outAcc ++ outBytes s }) ∨
    (∃ rest, s.snkReplies = .err :: rest ∧ t = raiseFault fWrite { s with
      snkReplies := rest, trace := s.trace ++ [.snkWrite s.obLen]
      outAcc := s.outAcc ++ (outBytes s).take (Config.drawNat s.draws), draws := s.draws + 1 }) := by
  simp only [exec, execWrite] at h
  split at h <;> injection h with h <;> subst h
  · exact .inl rfl
  · next hr => exact .inr (.inl ⟨_, hr, rfl⟩)
  · next hr => exact .inr (.inr ⟨_, hr, rfl⟩)

/-- `FLUSH` waits, makes the accepted bytes visible, or fails. -/
theorem exec_flush_cases (h : exec .flush s = .next t) :
    t = s ∨
    (∃ rest, s.snkReplies = .ok :: rest ∧ t = advance { s with
      snkReplies := rest, trace := s.trace ++ [.snkFlush], flushed := s.outAcc.length }) ∨
    (∃ rest, s.snkReplies = .err :: rest ∧ t = raiseFault fWrite { s with
      snkReplies := rest, trace := s.trace ++ [.snkFlush] }) := by
  simp only [exec, execFlush] at h
  split at h <;> injection h with h <;> subst h
  · exact .inl rfl
  · next hr => exact .inr (.inl ⟨_, hr, rfl⟩)
  · next hr => exact .inr (.inr ⟨_, hr, rfl⟩)

theorem exec_next_cases (h : exec .next s = .next t) :
    (s.last = true ∧ t = { s with drvState := .stopped, exitStatus := 0 }) ∨
    (s.last = false ∧ t = { s with phase := 3 }) := by
  simp only [exec, execNext] at h
  cases hl : s.last <;> simp [hl] at h <;> simp [h]

theorem exec_dec_cases {τ : SampleType} (h : exec (decOf τ) s = .next t) : t = decodeChunk τ s := by
  rw [exec_decOf] at h
  injection h with h
  exact h.symm

theorem exec_enc_cases {τ : SampleType} {sq : Bool} (h : exec (encOf τ sq) s = .next t) :
    t = encodeBuffer τ sq s := by
  rw [exec_encOf] at h
  injection h with h
  exact h.symm

/-! ## What every operation has in common -/

/-- The 22 operations in groups: the four `DEC` and the eight `ENC` are one case each. -/
theorem instr_groups {P : Instr → Prop} (dec : ∀ τ, P (decOf τ)) (enc : ∀ τ sq, P (encOf τ sq))
    (derive : P .derive) (init : P .init) (start : P .start) (read : P .read) (filter : P .filter)
    (resample : P .resample) (demod : P .demod) (write : P .write) (flush : P .flush)
    (next : P .next) : ∀ i, P i
  | .decS8 => dec .s8
  | .decU8 => dec .u8
  | .decI16 => dec .i16
  | .decF32 => dec .f32
  | .encS8 => enc .s8 false
  | .encU8 => enc .u8 false
  | .encI16 => enc .i16 false
  | .encF32 => enc .f32 false
  | .encS8Sq => enc .s8 true
  | .encU8Sq => enc .u8 true
  | .encI16Sq => enc .i16 true
  | .encF32Sq => enc .f32 true
  | .derive => derive
  | .init => init
  | .start => start
  | .read => read
  | .filter => filter
  | .resample => resample
  | .demod => demod
  | .write => write
  | .flush => flush
  | .next => next

/-- `e` agrees with `s` in everything by which the run is controlled: the configuration, `EXIT_STATUS`,
`DRV_STATE`, `FAULT_CODE`, `PHASE`, the START command, and the parameters of the run (R48). -/
def SameControl (s e : State) : Prop :=
  e = { s with
    last := e.last, pvalid := e.pvalid, pr := e.pr, buf := e.buf, bufLen := e.bufLen
    cbuf := e.cbuf, nc := e.nc, rcbuf := e.rcbuf, m := e.m, rbuf := e.rbuf, obuf := e.obuf
    obLen := e.obLen, tcs := e.tcs, inRest := e.inRest, outAcc := e.outAcc, flushed := e.flushed
    srcReplies := e.srcReplies, snkReplies := e.snkReplies, trace := e.trace, draws := e.draws }

namespace SameControl

variable {e : State} (h : SameControl s e)
include h

theorem drvState : e.drvState = s.drvState := (congrArg State.drvState h :)
theorem phase : e.phase = s.phase := (congrArg State.phase h :)
theorem tcFacts : e.tcFacts = s.tcFacts := (congrArg State.tcFacts h :)
theorem mCap : e.mCap = s.mCap := (congrArg State.mCap h :)

end SameControl

/-- What an operation can do to the control of the run (R239): it waits, takes a fault, or completes and
advances the phase; `START` begins the run, `NEXT` ends it or goes back to `READ`. -/
inductive Effect (i : Instr) (s : State) : State → Prop
  | waits : Effect i s s
  | aborts {c : BitVec 3} {e : State} (h : SameControl s e) : Effect i s (raiseFault c e)
  | completes {e : State} (hs : i ≠ .start) (hn : i ≠ .next) (h : SameControl s e) :
      Effect i s (advance e)
  | begins (hi : i = .start) (hc : okCfg s = true) :
      Effect i s { s with drvState := .running, phase := 1 }
  | stops (hi : i = .next) (hl : s.last = true) :
      Effect i s { s with drvState := .stopped, exitStatus := 0 }
  | returns (hi : i = .next) (hl : s.last = false) : Effect i s { s with phase := 3 }

theorem exec_effect {i : Instr} (h : exec i s = .next t) : Effect i s t := by
  cases i using instr_groups with
  | dec τ =>
    obtain rfl := exec_dec_cases h
    exact .completes (by cases τ <;> decide) (by cases τ <;> decide) rfl
  | enc τ sq =>
    obtain rfl := exec_enc_cases h
    exact .completes (by cases τ <;> cases sq <;> decide) (by cases τ <;> cases sq <;> decide) rfl
  | start =>
    rcases exec_start_cases h with ⟨hc, rfl⟩ | ⟨-, rfl⟩
    · exact .begins rfl hc
    · exact .aborts rfl
  | next =>
    rcases exec_next_cases h with ⟨hl, rfl⟩ | ⟨hl, rfl⟩
    · exact .stops rfl hl
    · exact .returns rfl hl
  | derive =>
    rcases exec_derive_cases h with ⟨-, rfl⟩ | ⟨-, rfl⟩
    · exact .completes (by decide) (by decide) rfl
    · exact .aborts rfl
  | init =>
    rcases exec_init_cases h with rfl | ⟨_, rfl⟩ | ⟨_, -, -, rfl⟩
    · exact .waits
    · exact .completes (by decide) (by decide) rfl
    · exact .aborts rfl
  | filter =>
    obtain ⟨_, -, rfl | ⟨_, _, -, rfl⟩ | rfl⟩ := exec_filter_cases h
    · exact .waits
    · exact .completes (by decide) (by decide) rfl
    · exact .aborts rfl
  | resample =>
    obtain ⟨_, -, rfl | ⟨_, _, -, -, rfl⟩ | rfl⟩ := exec_resample_cases h
    · exact .waits
    · exact .completes (by decide) (by decide) rfl
    · exact .aborts rfl
  | demod =>
    obtain ⟨_, -, rfl | ⟨_, _, -, rfl⟩ | rfl⟩ := exec_demod_cases h
    · exact .waits
    · exact .completes (by decide) (by decide) rfl
    · exact .aborts rfl
  | read =>
    rcases exec_read_cases h with rfl | ⟨_, _, -, rfl⟩ | ⟨_, -, rfl⟩
    · exact .waits
    · exact .completes (by decide) (by decide) rfl
    · exact .aborts rfl
  | write =>
    rcases exec_write_cases h with rfl | ⟨_, -, rfl⟩ | ⟨_, -, rfl⟩
    · exact .waits
    · exact .completes (by decide) (by decide) rfl
    · exact .aborts rfl
  | flush =>
    rcases exec_flush_cases h with rfl | ⟨_, -, rfl⟩ | ⟨_, -, rfl⟩
    · exact .waits
    · exact .completes (by decide) (by decide) rfl
    · exact .aborts rfl

/-! ## What the operations store -/

theorem decodeSamples_length (τ : SampleType) (b : List Byte) :
    (decodeSamples τ b).length = b.length / wIn τ := by
  rw [decodeSamples, List.length_map, groups_length]

theorem wIn_ge_two (τ : SampleType) : 2 ≤ wIn τ := by cases τ <;> decide

/-- Every byte below the length of what was stored from 0 on has been written. -/
theorem written_write {m : Memory} {d : List Byte} {a : Nat} (h : a < d.length) :
    Written (Memory.write m 0 d) a := by
  simp [Written, lookup_write, h]

/-- The length law of R191 for `filter_apply`, whoever answers the call. -/
theorem tcFilterApply_length {f f' : FiltSt} {x y : List ComplexSample}
    (h : tcFilterApply s f x = some (f', y)) : y.length = x.length := by
  have external : externalFilterApply f x = some (f', y) → y.length = x.length := by
    intro he
    obtain ⟨p, -, hp⟩ := Option.map_eq_some_iff.1 he
    obtain ⟨-, rfl⟩ := Prod.mk.inj hp
    exact p.2.2
  unfold tcFilterApply at h
  split at h
  · next p _ =>
    split at h
    · next hl =>
      obtain rfl := Option.some.inj h
      exact hl
    · exact external h
  · cases h
  · exact external h

/-- The length law of R191 for `demod_process`, whoever answers the call. -/
theorem tcDemodProcess_length {d d' : DmSt} {x : List ComplexSample} {y : List F32}
    (h : tcDemodProcess s d x = some (d', y)) : y.length = x.length := by
  have external : externalDemodProcess d x = some (d', y) → y.length = x.length := by
    intro he
    obtain ⟨p, -, hp⟩ := Option.map_eq_some_iff.1 he
    obtain ⟨-, rfl⟩ := Prod.mk.inj hp
    exact p.2.2
  unfold tcDemodProcess at h
  split at h
  · next p _ =>
    split at h
    · next hl =>
      obtain rfl := Option.some.inj h
      exact hl
    · exact external h
  · cases h
  · exact external h

theorem delivered_length_le (s : State) (n : Nat) : (delivered s n).length ≤ Config.bufferSize := by
  simp [delivered]

end Sys2Proof.Machine
end

section
/-! # The invariants of reachable states (R52)

A step keeps `State.Inv` in two moves: an operation stores its results in the phase in which it is
executed, where nothing is demanded of them yet; and `PHASE` goes forward once the results are as the
next phase wants them. -/

namespace Sys2Proof.Machine

variable {s t : State}

/-! ## Moves that concern no operation -/

/-- `t` differs from `s` at most in what stands behind the ports, in the record of transactions and in
the counter of free values. -/
def SameBlock (s t : State) : Prop :=
  t = { s with
    inRest := t.inRest, outAcc := t.outAcc, flushed := t.flushed, srcReplies := t.srcReplies
    snkReplies := t.snkReplies, tcReady := t.tcReady, tcFacts := t.tcFacts, trace := t.trace
    draws := t.draws }

/-- The invariants speak of the block, and of the environment only in that visible bytes were accepted. -/
theorem State.Inv.of_sameBlock (h : s.Inv) (ht : SameBlock s t) (hf : t.flushed ≤ t.outAcc.length) :
    t.Inv := by
  rw [ht]
  exact { h with flushed_le := hf }

/-- A waiting START command may be dropped. -/
theorem State.Inv.takeStart (h : s.Inv) : (takeStart s).Inv := { h with startIdle := nofun }

theorem State.Inv.startReq_of_running (h : s.Inv) (hr : s.drvState = .running) :
    s.startReq = false := by
  cases hq : s.startReq with
  | false => rfl
  | true => rw [h.startIdle hq] at hr; cases hr

/-- Nothing has failed in a state that has not `FAILED` (R31). -/
theorem State.Inv.faultCode_eq_zero (h : s.Inv) (hd : s.drvState ≠ .failed) : s.faultCode = 0 :=
  Classical.not_not.1 (mt h.failed_iff.2 hd)

/-- Fault entry with a legal code keeps the invariants, whatever port transaction it follows. -/
theorem State.Inv.raiseFault (h : s.Inv) (hq : s.startReq = false) {c : BitVec 3} {e : State}
    (hc : c ≠ 0 ∧ c.toNat ≤ 4) (he : SameBlock s e) (hf : e.flushed ≤ e.outAcc.length) :
    (raiseFault c e).Inv :=
  { h.of_sameBlock he hf with
    idlePhase := nofun
    runningPhase := nofun
    stoppedAt := nofun
    failed_iff := ⟨fun _ => hc.1, fun _ => rfl⟩
    faultCode_le := hc.2
    failedExit := fun _ => by simp [Config.exitFail]
    startIdle := fun hs => by
      have : e.startReq = s.startReq := (congrArg State.startReq he :)
      simp [this, hq] at hs }

/-- The run is taken up at a phase up to `READ`, where nothing is demanded of the buffers yet. -/
theorem State.Inv.runFrom (h : s.Inv) (hq : s.startReq = false) (hd : s.drvState ≠ .failed)
    {p : BitVec 4} (hlo : 1 ≤ p.toNat) (hhi : p.toNat ≤ 3) (hc : okCfg s = true)
    (hv : 2 ≤ p.toNat → s.pvalid = true) (ht : 3 ≤ p.toNat → s.tcs.isSome = true) :
    ({ s with drvState := .running, phase := p } : State).Inv :=
  { h with
    rbufWritten := fun (hk : 8 ≤ p.toNat) => by omega
    phase_le := show p.toNat ≤ 11 by omega
    idlePhase := nofun
    runningPhase := fun _ => hlo
    stoppedAt := nofun
    failed_iff := ⟨nofun, fun hf => absurd (h.faultCode_eq_zero hd) hf⟩
    failedExit := nofun
    startIdle := fun hs => by simp [hq] at hs
    cfgValid := fun _ => hc
    pvalidFrom := hv
    chainFrom := ht
    lastIs := fun (hk : 4 ≤ p.toNat) => by omega
    ncIs := fun (hk : 5 ≤ p.toNat) => by omega
    obLenIs := fun (hk : 9 ≤ p.toNat) => by omega }

/-! ## Going forward by one phase -/

/-- What the operation of the present phase owes to the next one (R52). -/
def Ready (s : State) : Prop :=
  match s.phase.toNat with
  | 1 => s.pvalid = true
  | 2 => s.tcs.isSome = true
  | 3 => s.last = true ↔ s.bufLen < Config.bufferSize
  | 4 => s.nc = s.bufLen / wIn (modeIntype s.mode)
  | 7 => s.m ≤ s.rbuf.length
  | 8 => s.obLen = s.m * wOut (modeOuttype s.mode)
  | _ => True

theorem advance_phase_toNat (h : s.phase.toNat ≤ 10) : (advance s).phase.toNat = s.phase.toNat + 1 := by
  rw [advance_phase, BitVec.toNat_add]
  exact Nat.mod_eq_of_lt (show s.phase.toNat + 1 < 16 by omega)

/-- A property wanted from the phase after `k` on holds at the phase after `p` when it held before and,
at `k`, has just been established. -/
theorem of_next_phase {P : Prop} {k p : Nat} (hold : k + 1 ≤ p → P) (new : p = k → P)
    (h : k + 1 ≤ p + 1) : P :=
  (Nat.eq_or_lt_of_le (Nat.le_of_succ_le_succ h)).elim (fun e => new e.symm) hold

/-- A running state whose operation has done its part goes on to the next phase. -/
theorem State.Inv.advance (h : s.Inv) (hr : s.drvState = .running) (hp : s.phase.toNat ≤ 10)
    (hd : Ready s) : (advance s).Inv := by
  have hp' := advance_phase_toNat hp
  unfold Ready at hd
  exact
    { h with
      phase_le := by omega
      idlePhase := fun hi => by simp [hr] at hi
      runningPhase := fun _ => by omega
      stoppedAt := fun hs => by simp [hr] at hs
      cfgValid := fun _ => h.cfgValid (h.runningPhase hr)
      pvalidFrom := fun hk => of_next_phase h.pvalidFrom (fun e => by simpa [e] using hd) (hp' ▸ hk)
      chainFrom := fun hk => of_next_phase h.chainFrom (fun e => by simpa [e] using hd) (hp' ▸ hk)
      lastIs := fun hk => of_next_phase h.lastIs (fun e => by simpa [e] using hd) (hp' ▸ hk)
      ncIs := fun hk => of_next_phase h.ncIs (fun e => by simpa [e] using hd) (hp' ▸ hk)
      rbufWritten := fun hk => of_next_phase h.rbufWritten (fun e => by simpa [e] using hd) (hp' ▸ hk)
      obLenIs := fun hk => of_next_phase h.obLenIs (fun e => by simpa [e] using hd) (hp' ▸ hk) }

/-! ## Each operation, executed in its phase -/

/-- `START` begins the run from `IDLE`, or fails there. -/
theorem exec_start_inv (h : s.Inv) (hi : s.drvState = .idle) (hq : s.startReq = false)
    (he : exec .start s = .next t) : t.Inv := by
  rcases exec_start_cases he with ⟨hc, rfl⟩ | ⟨-, rfl⟩
  · exact h.runFrom hq (by simp [hi]) (by decide) (by decide) hc nofun nofun
  · exact h.raiseFault hq (by decide) rfl h.flushed_le

section Running

variable (h : s.Inv) (hr : s.drvState = .running)
include h hr

theorem exec_derive_inv (hp : s.phase.toNat = 1) (he : exec .derive s = .next t) : t.Inv := by
  have hq := h.startReq_of_running hr
  rcases exec_derive_cases he with ⟨-, rfl⟩ | ⟨-, rfl⟩
  · have stored : ({ s with pr := derivedPr s, pvalid := true } : State).Inv :=
      { h with pvalidFrom := fun _ => rfl }
    exact stored.advance hr (by simp [hp]) (by simp [Ready, hp])
  · exact h.raiseFault hq (by decide) rfl h.flushed_le

theorem exec_init_inv (hp : s.phase.toNat = 2) (he : exec .init s = .next t) : t.Inv := by
  have hq := h.startReq_of_running hr
  rcases exec_init_cases he with rfl | ⟨c, rfl⟩ | ⟨n, -, -, rfl⟩
  · exact h
  · have stored : ({ s with
        draws := prDraws s, trace := s.trace ++ setupEvents, tcs := some c } : State).Inv :=
      { h with chainFrom := fun _ => rfl }
    exact stored.advance hr (by simp [hp]) (by simp [Ready, hp])
  · exact h.raiseFault hq (by decide) rfl h.flushed_le

theorem exec_read_inv (hp : s.phase.toNat = 3) (he : exec .read s = .next t) : t.Inv := by
  have hq := h.startReq_of_running hr
  rcases exec_read_cases he with rfl | ⟨n, rest, -, rfl⟩ | ⟨rest, -, rfl⟩
  · exact h
  · have hn := delivered_length_le s n
    have stored : ({ s with
        srcReplies := rest, trace := s.trace ++ [.srcRead Config.bufferSize]
        buf := Memory.write s.buf 0 (delivered s n), bufLen := (delivered s n).length
        last := shortRead (delivered s n).length
        inRest := s.inRest.drop (delivered s n).length } : State).Inv :=
      { h with
        bufWf := write_wf _ _ _ h.bufWf
        bufCap := fun c hc => (mem_write _ _ _ c hc).elim (h.bufCap c) (fun hw => by omega)
        bufLen_le := hn
        bufWritten := fun _ ha => written_write ha
        stoppedAt := fun hs => by simp [hr] at hs
        lastIs := fun hk => by simp [hp] at hk
        ncIs := fun hk => by simp [hp] at hk }
    exact stored.advance hr (by simp [hp]) (by simp [Ready, hp, bufferSize_eq])
  · exact h.raiseFault hq (by decide) rfl h.flushed_le

theorem exec_dec_inv (hp : s.phase.toNat = 4)
    (he : exec (decOf (modeIntype s.mode)) s = .next t) : t.Inv := by
  obtain rfl := exec_dec_cases he
  have hlen : (decodeSamples (modeIntype s.mode) (chunk s)).length =
      s.bufLen / wIn (modeIntype s.mode) := by
    rw [decodeSamples_length, chunk, reads_length]
  have hcap : s.bufLen / wIn (modeIntype s.mode) ≤ Config.cbufCap :=
    calc s.bufLen / wIn (modeIntype s.mode)
      _ ≤ s.bufLen / 2 := Nat.div_le_div_left (wIn_ge_two _) (by decide)
      _ ≤ Config.bufferSize / 2 := Nat.div_le_div_right h.bufLen_le
      _ = Config.cbufCap := rfl
  have stored : ({ s with
      nc := (decodeSamples (modeIntype s.mode) (chunk s)).length
      cbuf := writeArray s.cbuf (decodeSamples (modeIntype s.mode) (chunk s)) } : State).Inv :=
    { h with
      nc_le := hlen.trans_le hcap
      cbufWritten := by simp [writeArray_length]
      ncIs := fun _ => hlen }
  exact stored.advance hr (by simp [hp]) (by simp [Ready, hp, hlen])

theorem exec_filter_inv (hp : s.phase.toNat = 5) (he : exec .filter s = .next t) : t.Inv := by
  have hq := h.startReq_of_running hr
  obtain ⟨c, -, rfl | ⟨f', y, -, rfl⟩ | rfl⟩ := exec_filter_cases he
  · exact h
  · have stored : ({ s with
        trace := s.trace ++ [.filterApply], tcs := some { c with filt := f' }
        cbuf := writeArray s.cbuf y } : State).Inv :=
      { h with
        cbufWritten := by simp [writeArray_length, h.cbufWritten]
        chainFrom := fun _ => rfl }
    exact stored.advance hr (by simp [hp]) (by simp [Ready, hp])
  · exact h.raiseFault hq (by decide) rfl h.flushed_le

theorem exec_resample_inv (hp : s.phase.toNat = 6) (he : exec .resample s = .next t) : t.Inv := by
  have hq := h.startReq_of_running hr
  obtain ⟨c, -, rfl | ⟨r', z, -, hfit, rfl⟩ | rfl⟩ := exec_resample_cases he
  · exact h
  · have stored : ({ s with
        trace := s.trace ++ [.resamplerProcess], tcs := some { c with rs := r' }
        m := z.length, rcbuf := writeArray s.rcbuf z } : State).Inv :=
      { h with
        m_fits := hfit
        rcbufWritten := by simp [writeArray_length]
        rbufWritten := fun hk => by simp [hp] at hk
        chainFrom := fun _ => rfl
        obLenIs := fun hk => by simp [hp] at hk }
    exact stored.advance hr (by simp [hp]) (by simp [Ready, hp])
  · exact h.raiseFault hq (by decide) rfl h.flushed_le

theorem exec_demod_inv (hp : s.phase.toNat = 7) (he : exec .demod s = .next t) : t.Inv := by
  have hq := h.startReq_of_running hr
  obtain ⟨c, -, rfl | ⟨d', x, hx, rfl⟩ | rfl⟩ := exec_demod_cases he
  · exact h
  · have hlen : x.length = s.m := by rw [tcDemodProcess_length hx, rcbufIn, readArray_length]
    have hm : s.m ≤ (writeArray s.rbuf x).length := by simp [writeArray_length, hlen]
    have stored : ({ s with
        trace := s.trace ++ [.demodProcess], tcs := some { c with dm := d' }
        rbuf := writeArray s.rbuf x } : State).Inv :=
      { h with
        rbufWritten := fun _ => hm
        chainFrom := fun _ => rfl }
    exact stored.advance hr (by simp [hp]) (by simpa [Ready, hp] using hm)
  · exact h.raiseFault hq (by decide) rfl h.flushed_le

theorem exec_enc_inv (hp : s.phase.toNat = 8)
    (he : exec (encOf (modeOuttype s.mode) (modeSq s.mode)) s = .next t) : t.Inv := by
  obtain rfl := exec_enc_cases he
  generalize hy : encodeSamples (modeOuttype s.mode) (modeSq s.mode) s.draws (rbufIn s) = y
  have hlen : y.length = s.m * wOut (modeOuttype s.mode) := by
    rw [← hy, encodeSamples_length, rbufIn, readArray_length]
  have stored : ({ s with
      obuf := Memory.write s.obuf 0 y, obLen := y.length, draws := s.draws + s.m } : State).Inv :=
    { h with
      obufWf := write_wf _ _ _ h.obufWf
      obufWritten := fun _ ha => written_write ha
      obLenIs := fun _ => hlen }
  subst hy
  exact stored.advance hr (by simp [hp]) (by simp [Ready, hp, hlen])

theorem exec_write_inv (hp : s.phase.toNat = 9) (he : exec .write s = .next t) : t.Inv := by
  have hq := h.startReq_of_running hr
  have hle : ∀ p : List Byte, s.flushed ≤ (s.outAcc ++ p).length := fun p =>
    h.flushed_le.trans (by simp)
  rcases exec_write_cases he with rfl | ⟨rest, -, rfl⟩ | ⟨rest, -, rfl⟩
  · exact h
  · exact State.Inv.advance (h.of_sameBlock rfl (hle _)) hr (by simp [hp]) (by simp [Ready, hp])
  · exact h.raiseFault hq (by decide) rfl (hle _)

theorem exec_flush_inv (hp : s.phase.toNat = 10) (he : exec .flush s = .next t) : t.Inv := by
  have hq := h.startReq_of_running hr
  rcases exec_flush_cases he with rfl | ⟨rest, -, rfl⟩ | ⟨rest, -, rfl⟩
  · exact h
  · exact State.Inv.advance (h.of_sameBlock rfl le_rfl) hr (by simp [hp]) (by simp [Ready, hp])
  · exact h.raiseFault hq (by decide) rfl h.flushed_le

/-- `NEXT` ends the run where `LAST = 1`, or goes back to `READ`. -/
theorem exec_next_inv (hp : s.phase.toNat = 11) (he : exec .next s = .next t) : t.Inv := by
  have hq := h.startReq_of_running hr
  have hd : s.drvState ≠ .failed := by simp [hr]
  rcases exec_next_cases he with ⟨hl, rfl⟩ | ⟨-, rfl⟩
  · exact
      { h with
        idlePhase := nofun
        runningPhase := nofun
        stoppedAt := fun _ => ⟨BitVec.eq_of_toNat_eq hp, hl, rfl⟩
        failed_iff := ⟨nofun, fun hf => absurd (h.faultCode_eq_zero hd) hf⟩
        failedExit := nofun
        startIdle := fun hs => by simp [hq] at hs }
  · have back := h.runFrom hq hd (p := 3) (by decide) (by decide) (h.cfgValid (by omega))
      (fun _ => h.pvalidFrom (by omega)) (fun _ => h.chainFrom (by omega))
    rwa [← hr] at back

/-- The operation of the phase keeps the invariants (R52, by the table of R32). -/
theorem exec_inv {i : Instr} (hi : opOfPhase s.phase.toNat s.mode = some i)
    (he : exec i s = .next t) : t.Inv := by
  have hlo := h.runningPhase hr
  unfold opOfPhase at hi
  split at hi <;> cases hi
  case h_1 hp => omega
  case h_2 hp => exact exec_derive_inv h hr hp he
  case h_3 hp => exact exec_init_inv h hr hp he
  case h_4 hp => exact exec_read_inv h hr hp he
  case h_5 hp => exact exec_dec_inv h hr hp he
  case h_6 hp => exact exec_filter_inv h hr hp he
  case h_7 hp => exact exec_resample_inv h hr hp he
  case h_8 hp => exact exec_demod_inv h hr hp he
  case h_9 hp => exact exec_enc_inv h hr hp he
  case h_10 hp => exact exec_write_inv h hr hp he
  case h_11 hp => exact exec_flush_inv h hr hp he
  case h_12 hp => exact exec_next_inv h hr hp he

end Running

/-- Settles O56: a step rests, takes a START command, or is the operation of its phase, and each keeps
the invariants. -/
theorem invariantsKeptByStep : Obligations.InvariantsKeptByStep := by
  intro s t h he
  rcases step_cases he with rfl | ⟨hi, -, he⟩ | ⟨hr, i, hop, he⟩
  · exact h
  · exact exec_start_inv h.takeStart hi rfl he
  · exact exec_inv h hr hop he

end Sys2Proof.Machine
end

section
/-! # Obligations of the sequencer, of the host's registers, of fault entry and of the frames -/

namespace Sys2Proof.Machine

variable {s t : State}

/-! ## The sequencer -/

/-- Settles O7: the word of the phase decodes to the operation the table of R32 names. -/
theorem phaseSelectsOperation : Obligations.PhaseSelectsOperation := by
  intro s i hr hi
  exact step_of_running hr hi

/-- Settles O5: reading bytes after the word does not change the decoded operation. -/
theorem stepRunsDecodedOperation : Obligations.StepRunsDecodedOperation := by
  refine ⟨fun s w i rest hr hw hd => ?_, fun s hi hq => step_of_startReq hi hq⟩
  have hdw : decodeWord w = .ok i := by
    cases hdw : decodeWord w with
    | ok j => simpa [decode, hdw] using hd
    | error e => simp [decode, hdw] at hd
  exact step_of_opword hr hw hdw

/-- Settles O6: in those states the sequencer issues nothing. -/
theorem sequencerRests : Obligations.SequencerRests := by
  refine ⟨fun s hd => step_of_wait ?_, fun s hi hq => step_of_wait (by simp [issue, hi, hq])⟩
  rcases hd with hd | hd <;> simp [issue, hd]

/-- Settles O8: the effects an operation can have on the control of the run; `START` stands in phase 0
only and `NEXT` in phase 11 only. -/
theorem controlTransfers : Obligations.ControlTransfers := by
  constructor
  · intro s t hr h
    obtain ⟨i, hi, he⟩ := step_running_cases hr h
    cases exec_effect he with
    | waits => exact .inl rfl
    | aborts hs => exact .inr (.inr (.inr (.inr ⟨rfl, hs.phase⟩)))
    | completes _ hn hs =>
      refine .inr (.inl ⟨hs.drvState.trans hr, fun h11 => ?_, by rw [advance_phase, hs.phase]⟩)
      rw [h11] at hi
      exact hn (Option.some.inj hi).symm
    | begins hstart =>
      have h0 : s.phase = 0 := by rw [phase_of_opOfPhase hi, hstart]; rfl
      exact .inr (.inl ⟨rfl, by simp [h0], by simp [h0]⟩)
    | stops hnext hl =>
      have h11 : s.phase = 11 := by rw [phase_of_opOfPhase hi, hnext]; rfl
      exact .inr (.inr (.inr (.inl ⟨rfl, h11, hl, h11⟩)))
    | returns hnext hl =>
      have h11 : s.phase = 11 := by rw [phase_of_opOfPhase hi, hnext]; rfl
      exact .inr (.inr (.inl ⟨hr, h11, hl, rfl⟩))
  · intro s t hi h
    rcases step_cases h with rfl | ⟨-, -, he⟩ | ⟨hr, -⟩
    · exact .inl rfl
    · rcases exec_start_cases he with ⟨-, rfl⟩ | ⟨-, rfl⟩
      · exact .inr (.inl ⟨rfl, rfl⟩)
      · exact .inr (.inr ⟨rfl, rfl⟩)
    · rw [hi] at hr
      cases hr

/-- No operation stops the machine where the chain a stage reads exists (R46). -/
theorem exec_has_next {i : Instr} (h : isStage i = true → s.tcs.isSome = true) :
    ∃ t, exec i s = .next t := by
  cases i using instr_groups with
  | dec τ => exact ⟨_, exec_decOf τ s⟩
  | enc τ sq => exact ⟨_, exec_encOf τ sq s⟩
  | derive => simp only [exec, execDerive]; split <;> exact ⟨_, rfl⟩
  | init => simp only [exec, execInit]; split <;> exact ⟨_, rfl⟩
  | start => simp only [exec, execStart]; split <;> exact ⟨_, rfl⟩
  | read => simp only [exec, execRead]; split <;> exact ⟨_, rfl⟩
  | write => simp only [exec, execWrite]; split <;> exact ⟨_, rfl⟩
  | flush => simp only [exec, execFlush]; split <;> exact ⟨_, rfl⟩
  | next => simp only [exec, execNext]; split <;> exact ⟨_, rfl⟩
  | filter =>
    obtain ⟨c, hc⟩ := Option.isSome_iff_exists.1 (h rfl)
    simp only [exec, execFilter, hc]; split <;> exact ⟨_, rfl⟩
  | resample =>
    obtain ⟨c, hc⟩ := Option.isSome_iff_exists.1 (h rfl)
    simp only [exec, execResample, hc]; split <;> exact ⟨_, rfl⟩
  | demod =>
    obtain ⟨c, hc⟩ := Option.isSome_iff_exists.1 (h rfl)
    simp only [exec, execDemod, hc]; split <;> exact ⟨_, rfl⟩

/-- The stages stand in phases 5 to 7 (R32). -/
theorem phaseOf_ge_of_isStage : ∀ {i : Instr}, isStage i = true → 5 ≤ (phaseOf i).toNat := by
  intro i h
  simp only [isStage, Bool.or_eq_true, beq_iff_eq] at h
  rcases h with (rfl | rfl) | rfl <;> decide

/-- Settles O59: the phase is one that has an operation, and at the stages there is a chain. -/
theorem noStopFromInvariant : Obligations.NoStopFromInvariant := by
  intro s h
  cases hd : s.drvState with
  | running =>
    obtain ⟨i, hi⟩ := opOfPhase_isSome s.mode h.phase_le
    rw [step_of_running hd hi]
    refine exec_has_next (fun hs => h.chainFrom ?_)
    have := phaseOf_ge_of_isStage hs
    rw [← phase_of_opOfPhase hi] at this
    omega
  | idle =>
    cases hq : s.startReq with
    | true => rw [step_of_startReq hd hq]; exact exec_has_next nofun
    | false => exact ⟨s, step_of_wait (by simp [issue, hd, hq])⟩
  | stopped => exact ⟨s, step_of_wait (by simp [issue, hd])⟩
  | failed => exact ⟨s, step_of_wait (by simp [issue, hd])⟩

/-! ## Reset and the host's registers -/

/-- Settles O9: the fields of the reset state, and the two registers that are views. -/
theorem resetState : Obligations.ResetState := by
  unfold Obligations.ResetState
  exact ⟨rfl, rfl, rfl, rfl, rfl, rfl, rfl, rfl, rfl, rfl, rfl, rfl, rfl, rfl, rfl, rfl, rfl, rfl, rfl⟩

/-- The bits of the `STATUS` view (R23). -/
theorem getLsbD_statusView (s : State) (k : Nat) : (statusView s).getLsbD k =
    if k < 2 then (drvCode s.drvState).getLsbD k
    else if k = 2 then s.last
    else if k = 3 then s.pvalid
    else if k < 7 then s.faultCode.getLsbD (k - 4)
    else if k = 7 then false
    else s.phase.getLsbD (k - 8) := by
  change BitVec.getLsbD ((0 : BitVec 20) ++ s.phase ++ (0 : BitVec 1) ++
    s.faultCode ++ BitVec.ofBool s.pvalid ++ BitVec.ofBool s.last ++ drvCode s.drvState :
    BitVec (20 + 4 + 1 + 3 + 1 + 1 + 2)) k = _
  simp only [BitVec.getLsbD_append]
  by_cases h8 : k < 8
  · interval_cases k <;> simp
  · have hlo : ¬ k < 2 ∧ ¬ k - 2 < 1 ∧ ¬ k - 2 - 1 < 1 ∧ ¬ k - 2 - 1 - 1 < 3 ∧
        ¬ k - 2 - 1 - 1 - 3 < 1 := by omega
    have hne : k ≠ 2 ∧ k ≠ 3 ∧ ¬ k < 7 ∧ k ≠ 7 := by omega
    simp only [hlo, hne, if_false]
    split
    · rfl
    · rw [BitVec.getLsbD_of_ge s.phase _ (by omega)]
      simp

/-- Settles O11: bit by bit from the table of the view. -/
theorem statusFields : Obligations.StatusFields := by
  intro s
  have hr : hostReadCR s 1 = statusView s := rfl
  rw [hr]
  refine ⟨fun _ => rfl, ?_, getLsbD_statusView s 2, getLsbD_statusView s 3, ?_,
    getLsbD_statusView s 7, ?_, ?_⟩
  · have hcode : (statusView s).extractLsb' 0 2 = drvCode s.drvState := by
      refine BitVec.eq_of_getLsbD_eq fun k hk => ?_
      simp [getLsbD_statusView, hk]
    rw [hcode]
    cases s.drvState <;> rfl
  · refine BitVec.eq_of_getLsbD_eq fun k hk => ?_
    have : 4 + k ≠ 2 ∧ 4 + k ≠ 3 ∧ ¬ 4 + k < 2 ∧ 4 + k < 7 := by omega
    simp [getLsbD_statusView, hk, this]
  · refine BitVec.eq_of_getLsbD_eq fun k hk => ?_
    have : 8 + k ≠ 2 ∧ 8 + k ≠ 3 ∧ 8 + k ≠ 7 ∧ ¬ 8 + k < 2 ∧ ¬ 8 + k < 7 := by omega
    simp [getLsbD_statusView, hk, this]
  · refine BitVec.eq_of_getLsbD_eq fun k hk => ?_
    have : 12 + k ≠ 2 ∧ 12 + k ≠ 3 ∧ 12 + k ≠ 7 ∧ ¬ 12 + k < 2 ∧ ¬ 12 + k < 7 := by omega
    simp [getLsbD_statusView, this, BitVec.getLsbD_of_ge s.phase (12 + k - 8) (by omega)]

/-- The bits of `MODE` that are not reserved (R24). -/
theorem getLsbD_modeMask : ∀ k < 32, modeMask.getLsbD k = decide (k < 6 ∨ (8 ≤ k ∧ k < 14)) := by decide

/-- Settles O12: each register by its number. -/
theorem hostWritesRegisters : Obligations.HostWritesRegisters := by
  refine ⟨fun s v => ⟨rfl, rfl⟩, fun s v hi hv => ?_, fun s v hv => ?_, fun s => rfl,
    fun s => ⟨rfl, rfl, rfl, rfl, rfl, rfl⟩, fun s v hi hq => ?_⟩
  · simp [hostWriteCR, hv, hi]
  · simp only [hostWriteCR, hv, Bool.false_and]
    rfl
  · have hc : configurable s = true := by simp [configurable, hi, hq]
    refine ⟨by simp [hostWriteCR, hc], fun k hk => ?_, by simp [hostWriteCR, hc],
      by simp [hostWriteCR, hc], by simp [hostWriteCR, hc], by simp [hostWriteCR, hc]⟩
    rw [← getLsbD_modeMask k hk]
    simp [hostWriteCR, hc]

/-- Settles O13: by `PVALID`, and by the number of the register. -/
theorem hostReadsParameters : Obligations.HostReadsParameters := by
  refine ⟨fun s n hv => ?_, fun s n hv => by simp [hostReadPR, hv]⟩
  simp only [hostReadPR, hv, if_true]
  fin_cases n <;> rfl

/-! ## Waits and faults -/

/-- Settles O37: each operation looks first at whether its port answers, a stage at whether there is a
chain. -/
theorem waitsAndMissingChain : Obligations.WaitsAndMissingChain := by
  refine ⟨fun s h => ?_, fun s h => ⟨?_, ?_⟩, fun s h => ?_, fun s h hc => ?_,
    fun s h => ⟨?_, ?_, ?_⟩⟩
  · simp [exec, execRead, h]
  · simp [exec, execWrite, h]
  · simp [exec, execFlush, h]
  · simp [exec, execInit, h]
  · obtain ⟨c, hc⟩ := Option.ne_none_iff_exists'.1 hc
    refine ⟨?_, ?_, ?_⟩
    · simp [exec, execFilter, h, hc]
    · simp [exec, execResample, h, hc]
    · simp [exec, execDemod, h, hc]
  · simp [exec, execFilter, h]
  · simp [exec, execResample, h]
  · simp [exec, execDemod, h]

/-- Settles O51: `FAILED` is a state in which the sequencer issues nothing. -/
theorem faultEntry : Obligations.FaultEntry := fun _ _ => ⟨rfl, rfl⟩

/-! ## The Transform Chain -/

/-- What an operation never changes: the statements about the chain and `M_CAP` (R48). -/
theorem exec_keeps_parameters {i : Instr} (h : exec i s = .next t) :
    t.tcFacts = s.tcFacts ∧ t.mCap = s.mCap := by
  cases exec_effect h with
  | aborts hs => exact ⟨hs.tcFacts, hs.mCap⟩
  | completes _ _ hs => exact ⟨hs.tcFacts, hs.mCap⟩
  | waits | begins | stops | returns => exact ⟨rfl, rfl⟩

theorem step_keeps_parameters (h : step s = .next t) : t.tcFacts = s.tcFacts ∧ t.mCap = s.mCap := by
  rcases step_cases h with rfl | ⟨-, -, he⟩ | ⟨-, i, -, he⟩
  · exact ⟨rfl, rfl⟩
  · exact exec_keeps_parameters (s := takeStart s) he
  · exact exec_keeps_parameters he

theorem exec_filter_of_ready {c : ChainSt} (hc : s.tcs = some c) (hready : s.tcReady = true) :
    exec .filter s = .next (filterStage c s) := by
  simp [exec, execFilter, hc, hready]

/-- `FILTER` where the call succeeds (R188). -/
theorem filterStage_of_answer {c : ChainSt} {f' : FiltSt} {y : List ComplexSample}
    (hy : tcFilterApply s c.filt (cbufIn s) = some (f', y)) :
    filterStage c s = advance { s with
      trace := s.trace ++ [.filterApply], tcs := some { c with filt := f' }
      cbuf := writeArray s.cbuf y } := by
  unfold filterStage
  rw [hy]
  rfl

theorem exec_demod_of_ready {c : ChainSt} (hc : s.tcs = some c) (hready : s.tcReady = true) :
    exec .demod s = .next (demodStage c s) := by
  simp [exec, execDemod, hc, hready]

/-- `DEMOD` where the call succeeds (R190). -/
theorem demodStage_of_answer {c : ChainSt} {d' : DmSt} {x : List F32}
    (hx : tcDemodProcess s c.dm (rcbufIn s) = some (d', x)) :
    demodStage c s = advance { s with
      trace := s.trace ++ [.demodProcess], tcs := some { c with dm := d' }
      rbuf := writeArray s.rbuf x } := by
  unfold demodStage
  rw [hx]
  rfl

/-- Settles O36: the length laws of the two calls, the array laws for what is then read, and the
parameters of a run. -/
theorem chainKeepsLengths : Obligations.ChainKeepsLengths := by
  refine ⟨fun s f f' x y => tcFilterApply_length, fun s d d' x y => tcDemodProcess_length,
    fun s t c f' y hc hready hy h => ?_, fun s t c d' x hc hready hx h => ?_,
    fun s t => step_keeps_parameters, fun s f => stateTc_of_not_idle f s⟩
  · have hlen : y.length = s.nc := by rw [tcFilterApply_length hy, cbufIn, readArray_length]
    have back := readArray_writeArray (unwrittenComplex .cbuf) s.cbuf y
    rw [hlen] at back
    rw [exec_filter_of_ready hc hready, filterStage_of_answer hy] at h
    injection h with h
    subst h
    exact ⟨rfl, back⟩
  · have hlen : x.length = s.m := by rw [tcDemodProcess_length hx, rcbufIn, readArray_length]
    have back := readArray_writeArray (fun k => Config.unwrittenSample .rbuf k false) s.rbuf x
    rw [hlen] at back
    rw [exec_demod_of_ready hc hready, demodStage_of_answer hx] at h
    injection h with h
    subst h
    exact ⟨rfl, back⟩

/-! ## Frames -/

theorem byteAt_of_memories (hb : t.buf = s.buf) (ho : t.obuf = s.obuf) (sp : ByteSpace) (a : Nat) :
    byteAt t sp a = byteAt s sp a := by
  cases sp <;> simp [byteAt, hb, ho]

theorem byteAt_beyond_write (sp : ByteSpace) (m : Memory) (d : List Byte) {a : Nat} (h : d.length ≤ a) :
    Memory.read sp (Memory.write m 0 d) a = Memory.read sp m a :=
  read_write_outside sp m 0 d a (.inr (by omega))

/-- Settles O53: what the two shared operations store, and the laws of a store beyond its range. -/
theorem codecFrame : Obligations.CodecFrame := by
  constructor
  · intro τ s u h
    obtain rfl := exec_dec_cases h
    exact ⟨rfl, fun k hk => writeArray_beyond _ _ k hk, byteAt_of_memories rfl rfl⟩
  · intro τ sq s u h
    obtain rfl := exec_enc_cases h
    exact ⟨rfl, fun _ => rfl, fun a ha => byteAt_beyond_write .obuf _ _ ha⟩

section PortFrames

variable {u : State}

theorem exec_start_frame (h : exec .start s = .next u) : u = { s with
    drvState := u.drvState, phase := u.phase, faultCode := u.faultCode, exitStatus := u.exitStatus
    trace := u.trace } := by
  rcases exec_start_cases h with ⟨-, rfl⟩ | ⟨-, rfl⟩ <;> rfl

theorem exec_derive_frame (h : exec .derive s = .next u) : u = { s with
    pr := u.pr, pvalid := u.pvalid, phase := u.phase, drvState := u.drvState
    faultCode := u.faultCode, exitStatus := u.exitStatus, trace := u.trace } := by
  rcases exec_derive_cases h with ⟨-, rfl⟩ | ⟨-, rfl⟩ <;> rfl

theorem exec_init_frame (h : exec .init s = .next u) : u = { s with
    tcs := u.tcs, phase := u.phase, drvState := u.drvState, faultCode := u.faultCode
    exitStatus := u.exitStatus, trace := u.trace, draws := u.draws } := by
  rcases exec_init_cases h with rfl | ⟨_, rfl⟩ | ⟨_, -, -, rfl⟩ <;> rfl

theorem exec_filter_frame (h : exec .filter s = .next u) :
    u = { s with
      cbuf := u.cbuf, tcs := u.tcs, phase := u.phase, drvState := u.drvState
      faultCode := u.faultCode, exitStatus := u.exitStatus, trace := u.trace } ∧
    u.tcs.map (fun c => (c.rs, c.dm)) = s.tcs.map (fun c => (c.rs, c.dm)) ∧
    (∀ k, s.nc ≤ k → u.cbuf[k]? = s.cbuf[k]?) := by
  obtain ⟨c, hc, rfl | ⟨f', y, hy, rfl⟩ | rfl⟩ := exec_filter_cases h
  · exact ⟨rfl, rfl, fun _ _ => rfl⟩
  · have hlen : y.length = s.nc := by rw [tcFilterApply_length hy, cbufIn, readArray_length]
    exact ⟨rfl, by rw [hc]; rfl, fun k hk => writeArray_beyond _ _ k (hlen.trans_le hk)⟩
  · exact ⟨rfl, rfl, fun _ _ => rfl⟩

theorem exec_resample_frame (h : exec .resample s = .next u) :
    u = { s with
      rcbuf := u.rcbuf, m := u.m, tcs := u.tcs, phase := u.phase, drvState := u.drvState
      faultCode := u.faultCode, exitStatus := u.exitStatus, trace := u.trace } ∧
    u.tcs.map (fun c => (c.filt, c.dm)) = s.tcs.map (fun c => (c.filt, c.dm)) ∧
    (∀ k, u.m ≤ k → u.rcbuf[k]? = s.rcbuf[k]?) := by
  obtain ⟨c, hc, rfl | ⟨r', z, -, -, rfl⟩ | rfl⟩ := exec_resample_cases h
  · exact ⟨rfl, rfl, fun _ _ => rfl⟩
  · exact ⟨rfl, by rw [hc]; rfl, fun k hk => writeArray_beyond _ _ k hk⟩
  · exact ⟨rfl, rfl, fun _ _ => rfl⟩

theorem exec_demod_frame (h : exec .demod s = .next u) :
    u = { s with
      rbuf := u.rbuf, tcs := u.tcs, phase := u.phase, drvState := u.drvState
      faultCode := u.faultCode, exitStatus := u.exitStatus, trace := u.trace } ∧
    u.tcs.map (fun c => (c.filt, c.rs)) = s.tcs.map (fun c => (c.filt, c.rs)) ∧
    (∀ k, s.m ≤ k → u.rbuf[k]? = s.rbuf[k]?) := by
  obtain ⟨c, hc, rfl | ⟨d', x, hx, rfl⟩ | rfl⟩ := exec_demod_cases h
  · exact ⟨rfl, rfl, fun _ _ => rfl⟩
  · have hlen : x.length = s.m := by rw [tcDemodProcess_length hx, rcbufIn, readArray_length]
    exact ⟨rfl, by rw [hc]; rfl, fun k hk => writeArray_beyond _ _ k (hlen.trans_le hk)⟩
  · exact ⟨rfl, rfl, fun _ _ => rfl⟩

theorem exec_read_frame (h : exec .read s = .next u) :
    u = { s with
      buf := u.buf, bufLen := u.bufLen, last := u.last, phase := u.phase, inRest := u.inRest
      srcReplies := u.srcReplies, drvState := u.drvState, faultCode := u.faultCode
      exitStatus := u.exitStatus, trace := u.trace, draws := u.draws } ∧
    (∀ a, u.bufLen ≤ a → byteAt u .buf a = byteAt s .buf a) := by
  rcases exec_read_cases h with rfl | ⟨_, _, -, rfl⟩ | ⟨_, -, rfl⟩
  · exact ⟨rfl, fun _ _ => rfl⟩
  · exact ⟨rfl, fun _ ha => byteAt_beyond_write .buf _ _ ha⟩
  · exact ⟨rfl, fun _ _ => rfl⟩

theorem exec_write_frame (h : exec .write s = .next u) : u = { s with
    outAcc := u.outAcc, snkReplies := u.snkReplies, phase := u.phase, drvState := u.drvState
    faultCode := u.faultCode, exitStatus := u.exitStatus, trace := u.trace, draws := u.draws } := by
  rcases exec_write_cases h with rfl | ⟨_, -, rfl⟩ | ⟨_, -, rfl⟩ <;> rfl

theorem exec_flush_frame (h : exec .flush s = .next u) : u = { s with
    flushed := u.flushed, snkReplies := u.snkReplies, phase := u.phase, drvState := u.drvState
    faultCode := u.faultCode, exitStatus := u.exitStatus, trace := u.trace } := by
  rcases exec_flush_cases h with rfl | ⟨_, -, rfl⟩ | ⟨_, -, rfl⟩ <;> rfl

theorem exec_next_frame (h : exec .next s = .next u) : u = { s with
    phase := u.phase, drvState := u.drvState, exitStatus := u.exitStatus } := by
  rcases exec_next_cases h with ⟨-, rfl⟩ | ⟨-, rfl⟩ <;> rfl

/-- Of the operations other than the codec, only `READ` touches a byte memory: the frames of the others
have none. -/
theorem exec_keeps_memories {i : Instr} (hi : i ∈ [Instr.start, .derive, .init, .filter, .resample,
    .demod, .write, .flush, .next]) (h : exec i s = .next u) : u.buf = s.buf ∧ u.obuf = s.obuf := by
  simp only [List.mem_cons, List.not_mem_nil, or_false] at hi
  rcases hi with rfl | rfl | rfl | rfl | rfl | rfl | rfl | rfl | rfl
  · rw [exec_start_frame h]; exact ⟨rfl, rfl⟩
  · rw [exec_derive_frame h]; exact ⟨rfl, rfl⟩
  · rw [exec_init_frame h]; exact ⟨rfl, rfl⟩
  · rw [(exec_filter_frame h).1]; exact ⟨rfl, rfl⟩
  · rw [(exec_resample_frame h).1]; exact ⟨rfl, rfl⟩
  · rw [(exec_demod_frame h).1]; exact ⟨rfl, rfl⟩
  · rw [exec_write_frame h]; exact ⟨rfl, rfl⟩
  · rw [exec_flush_frame h]; exact ⟨rfl, rfl⟩
  · rw [exec_next_frame h]; exact ⟨rfl, rfl⟩

end PortFrames

/-- Settles O54: the frame of each operation, and what the frames give for the byte memories. -/
theorem portFrame : Obligations.PortFrame :=
  ⟨fun _ _ => exec_start_frame, fun _ _ => exec_derive_frame, fun _ _ => exec_init_frame,
    fun _ _ => exec_filter_frame, fun _ _ => exec_resample_frame, fun _ _ => exec_demod_frame,
    fun _ _ => exec_read_frame, fun _ _ => exec_write_frame, fun _ _ => exec_flush_frame,
    fun _ _ => exec_next_frame, fun _ _ _ hi h =>
      have ⟨hb, ho⟩ := exec_keeps_memories hi h
      byteAt_of_memories hb ho⟩

end Sys2Proof.Machine
end

section
/-! # The invariants at reset and under the host's moves (R52, R267) -/

namespace Sys2Proof.Machine

variable {s : State}

/-- The reset state meets the invariants whatever `M_CAP` is. -/
theorem reset_inv (cap : Option Nat) : ({ State.reset with mCap := cap } : State).Inv where
  bufWf := .nil
  obufWf := .nil
  bufCap := nofun
  bufLen_le := Nat.zero_le _
  nc_le := Nat.zero_le _
  m_fits := (fitsCap_iff _ _).2 fun _ _ => Nat.zero_le _
  bufWritten := nofun
  obufWritten := nofun
  cbufWritten := Nat.zero_le _
  rcbufWritten := Nat.zero_le _
  rbufWritten := fun _ => Nat.zero_le _
  modeReserved := show (0 : Word) &&& ~~~modeMask = 0 by decide
  phase_le := Nat.zero_le _
  idlePhase := fun _ => rfl
  runningPhase := nofun
  stoppedAt := nofun
  failed_iff := ⟨nofun, fun h => absurd rfl h⟩
  faultCode_le := Nat.zero_le _
  failedExit := nofun
  startIdle := nofun
  cfgValid := nofun
  pvalidFrom := nofun
  chainFrom := nofun
  lastIs := nofun
  ncIs := nofun
  obLenIs := nofun
  flushed_le := Nat.zero_le _

/-- Settles O55: nothing has been stored, and no transaction made. -/
theorem invariantsAtReset : Obligations.InvariantsAtReset :=
  ⟨reset_inv Config.mCap, fun _ _ => rfl, nofun, nofun⟩

/-! ## Register writes -/

/-- In `IDLE` the configuration is free (R21): the invariants ask of it only that reserved bits are 0. -/
theorem State.Inv.configured (h : s.Inv) (hi : s.drvState = .idle) {mode : Word}
    (hm : mode &&& ~~~modeMask = 0) (sr rr bw dev : Word) (q : Bool) :
    ({ s with
      mode := mode, samplerate := sr, resamplerate := rr, bandwidth := bw, deviation := dev
      startReq := q } : State).Inv := by
  have hp : s.phase.toNat = 0 := by rw [h.idlePhase hi]; rfl
  exact
    { h with
      modeReserved := hm
      startIdle := fun _ => hi
      cfgValid := fun hk => by simp [hp] at hk
      ncIs := fun hk => by simp [hp] at hk
      obLenIs := fun hk => by simp [hp] at hk }

/-- The reserved bits ignore a write (R24). -/
theorem masked_reserved (v : Word) : (v &&& modeMask) &&& ~~~modeMask = 0 := by
  rw [BitVec.and_assoc, show modeMask &&& ~~~modeMask = 0 by decide]
  exact BitVec.and_zero

/-- What a host write can do: nothing, or in `IDLE` set the START command and write legal configuration
values. -/
theorem hostWriteCR_cases (s : State) (n : Fin 8) (v : Word) :
    hostWriteCR s n v = s ∨ s.drvState = .idle ∧ ∃ mode sr rr bw dev q,
      (mode = s.mode ∨ mode = v &&& modeMask) ∧ hostWriteCR s n v = { s with
        mode := mode, samplerate := sr, resamplerate := rr, bandwidth := bw, deviation := dev
        startReq := q } := by
  have idle_of_configurable : configurable s = true → s.drvState = .idle := by
    simp +contextual [configurable]
  unfold hostWriteCR
  split
  case h_7 => exact .inl rfl
  all_goals split
  case h_1.isTrue hc =>
    exact .inr ⟨by simpa using (Bool.and_eq_true_iff.1 hc).2, _, _, _, _, _, _, .inl rfl, rfl⟩
  case h_2.isTrue hc => exact .inr ⟨idle_of_configurable hc, _, _, _, _, _, _, .inr rfl, rfl⟩
  case h_3.isTrue hc => exact .inr ⟨idle_of_configurable hc, _, _, _, _, _, _, .inl rfl, rfl⟩
  case h_4.isTrue hc => exact .inr ⟨idle_of_configurable hc, _, _, _, _, _, _, .inl rfl, rfl⟩
  case h_5.isTrue hc => exact .inr ⟨idle_of_configurable hc, _, _, _, _, _, _, .inl rfl, rfl⟩
  case h_6.isTrue hc => exact .inr ⟨idle_of_configurable hc, _, _, _, _, _, _, .inl rfl, rfl⟩
  all_goals exact .inl rfl

theorem State.Inv.hostWriteCR (h : s.Inv) (n : Fin 8) (v : Word) : (hostWriteCR s n v).Inv := by
  rcases hostWriteCR_cases s n v with e | ⟨hi, mode, sr, rr, bw, dev, q, hm, e⟩
  · rw [e]; exact h
  · rw [e]
    refine h.configured hi ?_ sr rr bw dev q
    rcases hm with rfl | rfl
    · exact h.modeReserved
    · exact masked_reserved v

/-! ## A configuration line: host writes only (R111) -/

theorem State.Inv.clearConfig (h : s.Inv) : (clearConfig s).Inv :=
  ((((h.hostWriteCR 2 _).hostWriteCR 3 _).hostWriteCR 4 _).hostWriteCR 5 _).hostWriteCR 6 _

theorem State.Inv.assembleItem (h : s.Inv) (c : ConfigItem) : (assembleItem s c).Inv := by
  cases c with
  | samplerate n => exact (h.hostWriteCR 3 _).hostWriteCR 2 _
  | resamplerate n => exact (h.hostWriteCR 4 _).hostWriteCR 2 _
  | bandwidth n => exact (h.hostWriteCR 5 _).hostWriteCR 2 _
  | deviation n => exact (h.hostWriteCR 6 _).hostWriteCR 2 _
  | intype | outtype | fm | squarewave => exact h.hostWriteCR 2 _

theorem State.Inv.assemble (h : s.Inv) (line : List ConfigItem) : (assemble line s).Inv :=
  have items : (line.foldl Machine.assembleItem (Machine.clearConfig s)).Inv :=
    List.foldlRecOn line _ h.clearConfig fun _ h c _ => h.assembleItem c
  items.hostWriteCR 0 1

/-! ## The other moves -/

theorem State.Inv.hostReadPR (h : s.Inv) (n : Fin 7) : (hostReadPR s n).2.Inv := by
  unfold Machine.hostReadPR
  split
  · exact h
  · exact h.of_sameBlock rfl h.flushed_le

/-- Reset only adds to the output accepted (R286). -/
theorem outAcc_length_le_acceptedAtReset (s : State) :
    s.outAcc.length ≤ (acceptedAtReset s).length := by
  unfold acceptedAtReset
  split <;> simp

theorem State.Inv.hostReset (h : s.Inv) : (hostReset s).Inv :=
  (reset_inv s.mCap).of_sameBlock rfl (h.flushed_le.trans (outAcc_length_le_acceptedAtReset s))

theorem State.Inv.hostConnect (h : s.Inv) (input : List Byte) : (hostConnect input s).Inv := by
  unfold Machine.hostConnect
  split
  · exact h.of_sameBlock rfl (Nat.zero_le _)
  · exact h

theorem State.Inv.stateTc (h : s.Inv) (f : TcFacts) : (stateTc f s).Inv := by
  unfold Machine.stateTc
  split
  · exact h.of_sameBlock rfl h.flushed_le
  · exact h

/-- Settles O57: register writes keep the invariants, a line is made of them, reset starts afresh, and
every other move stays behind the ports. -/
theorem invariantsKeptByHost : Obligations.InvariantsKeptByHost := fun _ h =>
  ⟨h.hostWriteCR, h.hostReadPR, h.hostReset, h.hostConnect,
    fun _ => h.of_sameBlock rfl h.flushed_le, fun _ => h.of_sameBlock rfl h.flushed_le,
    fun _ => h.of_sameBlock rfl h.flushed_le, h.stateTc, fun _ => h.of_sameBlock rfl h.flushed_le,
    h.assemble⟩

end Sys2Proof.Machine
end

section
/-! # The order of port transactions (R77)

The record, but for the lengths of writes, is a function of the phase and of the number of whole
iterations. An operation that completes appends its own transactions, which leads to the value at the
next phase; one that fails appends a part of them and the report. -/

namespace Sys2Proof.Machine

variable {s t : State}

/-- The transactions of an operation that completes, by kind (R77, R187). -/
def eventsOf : Instr → List PortEvent
  | .init => setupEvents
  | .read => [.srcRead 8192]
  | .filter => [.filterApply]
  | .resample => [.resamplerProcess]
  | .demod => [.demodProcess]
  | .write => [.snkWrite 0]
  | .flush => [.snkFlush]
  | _ => []

/-- The transactions before phase `k` with `n` iterations done, by kind: none until `INIT` is done. -/
def eventsUpTo (n k : Nat) : List PortEvent :=
  if k ≤ 2 then [] else wholeRuns n ++ iterationEvents.take (eventsBefore k)

/-! ## `State.TraceInv` by `eventsUpTo` -/

theorem State.traceInv_iff_of_not_failed (hd : s.drvState ≠ .failed) :
    s.TraceInv ↔ ∃ n, s.trace.map PortEvent.kind = eventsUpTo n s.phase.toNat := by
  by_cases hp : s.phase.toNat ≤ 2
  · simp only [eventsUpTo, hp, if_true, List.map_eq_nil_iff, exists_const]
    exact ⟨fun h => h.before hd hp, fun h =>
      ⟨fun _ _ => h, fun _ _ => absurd hp (by omega), fun hf => absurd hf hd⟩⟩
  · simp only [eventsUpTo, hp, if_false]
    exact ⟨fun h => h.during hd (by omega), fun h =>
      ⟨fun _ hk => absurd hk hp, fun _ _ => h, fun hf => absurd hf hd⟩⟩

theorem State.TraceInv.of_failed (hd : s.drvState = .failed) {n : Nat} {cut : List PortEvent}
    (hcut : cut <+: wholeRuns n) (ht : s.trace.map PortEvent.kind = cut ++ [.errReport]) :
    s.TraceInv :=
  ⟨fun h => absurd hd h, fun h => absurd hd h, fun _ => ⟨n, cut, hcut, ht⟩⟩

/-! ## From phase to phase -/

theorem wholeRuns_succ (n : Nat) : wholeRuns (n + 1) = wholeRuns n ++ iterationEvents := by
  simp [wholeRuns, List.replicate_succ']

theorem eventsUpTo_prefix (n k : Nat) : eventsUpTo n k <+: wholeRuns (n + 1) := by
  unfold eventsUpTo
  split
  · exact List.nil_prefix
  · rw [wholeRuns_succ]
    exact List.prefix_append_right_inj _ |>.2 (List.take_prefix _ _)

/-- After `NEXT`, one more iteration is whole. -/
theorem eventsUpTo_wrap (n : Nat) : eventsUpTo n 11 = eventsUpTo (n + 1) 3 := by
  simp [eventsUpTo, eventsBefore, wholeRuns_succ, iterationEvents]

theorem eventsOf_decOf (τ : SampleType) : eventsOf (decOf τ) = [] := by cases τ <;> rfl

theorem eventsOf_encOf (τ : SampleType) (sq : Bool) : eventsOf (encOf τ sq) = [] := by
  cases τ <;> cases sq <;> rfl

/-- The transactions of the operation of a phase lead to the next phase; at `INIT` the iterations begin
to count. -/
theorem eventsUpTo_append_eventsOf (n : Nat) {k : Nat} {mode : Word} {i : Instr}
    (hi : opOfPhase k mode = some i) (hk : k ≤ 10) :
    ∃ n', eventsUpTo n k ++ eventsOf i = eventsUpTo n' (k + 1) := by
  unfold opOfPhase at hi
  split at hi <;> cases hi
  case h_3 => exact ⟨0, rfl⟩
  case h_5 => exact ⟨n, by rw [eventsOf_decOf, List.append_nil]; rfl⟩
  case h_9 => exact ⟨n, by rw [eventsOf_encOf, List.append_nil]; rfl⟩
  case h_12 => omega
  all_goals
    exact ⟨n, by simp [eventsUpTo, eventsBefore, eventsOf, iterationEvents]⟩

/-- Only `NEXT` stands past phase 10. -/
theorem phase_le_of_ne_next {p : BitVec 4} {mode : Word} {i : Instr}
    (hi : opOfPhase p.toNat mode = some i) (hn : i ≠ .next) : p.toNat ≤ 10 := by
  rw [phase_of_opOfPhase hi]
  cases i with
  | next => exact absurd rfl hn
  | _ => decide

/-- The transactions of the operation of a phase, whatever the phase, are in order. -/
theorem eventsUpTo_append_eventsOf_prefix (n : Nat) {p : BitVec 4} {mode : Word} {i : Instr}
    (hi : opOfPhase p.toNat mode = some i) :
    ∃ m, eventsUpTo n p.toNat ++ eventsOf i <+: wholeRuns m := by
  by_cases hn : i = .next
  · subst hn
    exact ⟨n + 1, by simpa [eventsOf] using eventsUpTo_prefix n p.toNat⟩
  · obtain ⟨n', hn'⟩ := eventsUpTo_append_eventsOf n hi (phase_le_of_ne_next hi hn)
    exact ⟨n' + 1, hn' ▸ eventsUpTo_prefix n' _⟩

/-! ## What an operation records -/

/-- How an operation extends the record: by its own transactions, or by some of them, in order, and the
report of its fault. -/
inductive Records (i : Instr) (s t : State) : Prop
  | all (hd : t.drvState ≠ .failed)
      (ht : t.trace.map PortEvent.kind = s.trace.map PortEvent.kind ++ eventsOf i)
  | part (hd : t.drvState = .failed) {cut : List PortEvent} (hcut : cut <+: eventsOf i)
      (ht : t.trace.map PortEvent.kind = s.trace.map PortEvent.kind ++ cut ++ [.errReport])

theorem map_kind_setupEvents : setupEvents.map PortEvent.kind = setupEvents := rfl

/-- An operation that does not wait records its transactions, all of them unless it fails. -/
theorem exec_records {i : Instr} (hd : s.drvState ≠ .failed) (h : exec i s = .next t) :
    t = s ∨ Records i s t := by
  cases i using instr_groups with
  | dec τ =>
    obtain rfl := exec_dec_cases h
    exact .inr (.all hd (by simp [eventsOf_decOf]))
  | enc τ sq =>
    obtain rfl := exec_enc_cases h
    exact .inr (.all hd (by simp [eventsOf_encOf]))
  | start =>
    rcases exec_start_cases h with ⟨-, rfl⟩ | ⟨-, rfl⟩
    · exact .inr (.all nofun (by simp [eventsOf]))
    · exact .inr (.part rfl List.nil_prefix (by simp [PortEvent.kind]))
  | next =>
    rcases exec_next_cases h with ⟨-, rfl⟩ | ⟨-, rfl⟩
    · exact .inr (.all nofun (by simp [eventsOf]))
    · exact .inr (.all hd (by simp [eventsOf]))
  | derive =>
    rcases exec_derive_cases h with ⟨-, rfl⟩ | ⟨-, rfl⟩
    · exact .inr (.all hd (by simp [eventsOf]))
    · exact .inr (.part rfl List.nil_prefix (by simp [PortEvent.kind]))
  | init =>
    rcases exec_init_cases h with rfl | ⟨c, rfl⟩ | ⟨n, -, -, rfl⟩
    · exact .inl rfl
    · exact .inr (.all hd (by simp [eventsOf, map_kind_setupEvents]))
    · exact .inr (.part rfl (List.take_prefix n setupEvents)
        (by simp [map_kind_setupEvents, PortEvent.kind]))
  | filter =>
    obtain ⟨c, -, rfl | ⟨f', y, -, rfl⟩ | rfl⟩ := exec_filter_cases h
    · exact .inl rfl
    · exact .inr (.all hd (by simp [eventsOf, PortEvent.kind]))
    · exact .inr (.part rfl List.prefix_rfl (by simp [eventsOf, PortEvent.kind]))
  | resample =>
    obtain ⟨c, -, rfl | ⟨r', z, -, -, rfl⟩ | rfl⟩ := exec_resample_cases h
    · exact .inl rfl
    · exact .inr (.all hd (by simp [eventsOf, PortEvent.kind]))
    · exact .inr (.part rfl List.prefix_rfl (by simp [eventsOf, PortEvent.kind]))
  | demod =>
    obtain ⟨c, -, rfl | ⟨d', x, -, rfl⟩ | rfl⟩ := exec_demod_cases h
    · exact .inl rfl
    · exact .inr (.all hd (by simp [eventsOf, PortEvent.kind]))
    · exact .inr (.part rfl List.prefix_rfl (by simp [eventsOf, PortEvent.kind]))
  | read =>
    rcases exec_read_cases h with rfl | ⟨n, rest, -, rfl⟩ | ⟨rest, -, rfl⟩
    · exact .inl rfl
    · exact .inr (.all hd (by simp [eventsOf, PortEvent.kind, bufferSize_eq]))
    · exact .inr (.part rfl List.prefix_rfl (by simp [eventsOf, PortEvent.kind, bufferSize_eq]))
  | write =>
    rcases exec_write_cases h with rfl | ⟨rest, -, rfl⟩ | ⟨rest, -, rfl⟩
    · exact .inl rfl
    · exact .inr (.all hd (by simp [eventsOf, PortEvent.kind]))
    · exact .inr (.part rfl List.prefix_rfl (by simp [eventsOf, PortEvent.kind]))
  | flush =>
    rcases exec_flush_cases h with rfl | ⟨rest, -, rfl⟩ | ⟨rest, -, rfl⟩
    · exact .inl rfl
    · exact .inr (.all hd (by simp [eventsOf, PortEvent.kind]))
    · exact .inr (.part rfl List.prefix_rfl (by simp [eventsOf, PortEvent.kind]))

/-- The phase an operation goes to is the one its transactions lead to. -/
theorem eventsUpTo_of_effect (n : Nat) {i : Instr} (hi : opOfPhase s.phase.toNat s.mode = some i)
    (he : Effect i s t) (ht : t.drvState ≠ .failed) (hw : t ≠ s) :
    ∃ n', eventsUpTo n s.phase.toNat ++ eventsOf i = eventsUpTo n' t.phase.toNat := by
  have hp := phase_of_opOfPhase hi
  cases he with
  | waits => exact absurd rfl hw
  | aborts => exact absurd rfl ht
  | completes _ hn hs =>
    have hle := phase_le_of_ne_next hi hn
    rw [advance_phase_toNat (hs.phase ▸ hle), hs.phase]
    exact eventsUpTo_append_eventsOf n hi hle
  | begins hstart =>
    subst hstart
    exact ⟨0, by rw [hp]; rfl⟩
  | stops hnext =>
    subst hnext
    exact ⟨n, List.append_nil _⟩
  | returns hnext =>
    subst hnext
    exact ⟨n + 1, by rw [hp]; exact (List.append_nil _).trans (eventsUpTo_wrap n)⟩

/-- The operation of the phase keeps the order of transactions. -/
theorem exec_traceInv {i : Instr} (h : s.TraceInv) (hd : s.drvState ≠ .failed)
    (hi : opOfPhase s.phase.toNat s.mode = some i) (he : exec i s = .next t) : t.TraceInv := by
  by_cases hw : t = s
  · rwa [hw]
  obtain ⟨n, hn⟩ := (State.traceInv_iff_of_not_failed hd).1 h
  rcases (exec_records hd he).resolve_left hw with ⟨ht, htr⟩ | ⟨ht, hcut, htr⟩
  · obtain ⟨n', hn'⟩ := eventsUpTo_of_effect n hi (exec_effect he) ht hw
    exact (State.traceInv_iff_of_not_failed ht).2 ⟨n', by rw [htr, hn, hn']⟩
  · obtain ⟨m, hm⟩ := eventsUpTo_append_eventsOf_prefix n hi
    have before := (List.prefix_append_right_inj (eventsUpTo n s.phase.toNat)).2 hcut
    exact .of_failed ht (before.trans hm) (by rw [htr, hn])

/-- Settles O58: a step rests, takes a START command in phase 0, or is the operation of its phase. -/
theorem portOrderKeptByStep : Obligations.PortOrderKeptByStep := by
  intro s t h htr he
  rcases step_cases he with rfl | ⟨hi, -, he⟩ | ⟨hr, i, hop, he⟩
  · exact htr
  · have taken : (takeStart s).TraceInv := ⟨htr.before, htr.during, htr.after⟩
    have hop : opOfPhase (takeStart s).phase.toNat (takeStart s).mode = some .start := by
      change opOfPhase s.phase.toNat s.mode = some .start
      rw [h.idlePhase hi]
      rfl
    exact exec_traceInv taken (show s.drvState ≠ .failed by simp [hi]) hop he
  · exact exec_traceInv htr (by simp [hr]) hop he

end Sys2Proof.Machine
end

section
/-! # The configuration and the parameters derived from it (R80) -/

namespace Sys2Proof.Machine

variable {s t : State}

/-- `t` has the configuration registers CR2 to CR6 of `s`. -/
def SameConfig (s t : State) : Prop :=
  t.mode = s.mode ∧ t.samplerate = s.samplerate ∧ t.resamplerate = s.resamplerate ∧
    t.bandwidth = s.bandwidth ∧ t.deviation = s.deviation

theorem SameControl.sameConfig {e : State} (h : SameControl s e) : SameConfig s e := by
  rw [h]
  exact ⟨rfl, rfl, rfl, rfl, rfl⟩

theorem exec_keeps_configuration {i : Instr} (h : exec i s = .next t) : SameConfig s t := by
  cases exec_effect h with
  | aborts hs => exact hs.sameConfig
  | completes _ _ hs => exact hs.sameConfig
  | waits | begins | stops | returns => exact ⟨rfl, rfl, rfl, rfl, rfl⟩

/-- `DERIVE` alone writes PR0 to PR6 and `PVALID` (R43, R35). -/
theorem exec_keeps_parameterFile {i : Instr} (hi : i ≠ .derive) (h : exec i s = .next t) :
    t.pr = s.pr ∧ t.pvalid = s.pvalid := by
  cases i using instr_groups with
  | derive => exact absurd rfl hi
  | dec τ => rw [exec_dec_cases h]; exact ⟨rfl, rfl⟩
  | enc τ sq => rw [exec_enc_cases h]; exact ⟨rfl, rfl⟩
  | start => rw [exec_start_frame h]; exact ⟨rfl, rfl⟩
  | init => rw [exec_init_frame h]; exact ⟨rfl, rfl⟩
  | read => rw [(exec_read_frame h).1]; exact ⟨rfl, rfl⟩
  | filter => rw [(exec_filter_frame h).1]; exact ⟨rfl, rfl⟩
  | resample => rw [(exec_resample_frame h).1]; exact ⟨rfl, rfl⟩
  | demod => rw [(exec_demod_frame h).1]; exact ⟨rfl, rfl⟩
  | write => rw [exec_write_frame h]; exact ⟨rfl, rfl⟩
  | flush => rw [exec_flush_frame h]; exact ⟨rfl, rfl⟩
  | next => rw [exec_next_frame h]; exact ⟨rfl, rfl⟩

theorem exec_keeps_pvalid {i : Instr} (h : exec i s = .next t) (hv : s.pvalid = true) :
    t.pvalid = true := by
  by_cases hi : i = .derive
  · subst hi
    rcases exec_derive_cases h with ⟨-, rfl⟩ | ⟨-, rfl⟩
    · rfl
    · exact hv
  · exact (exec_keeps_parameterFile hi h).2.trans hv

theorem hostWriteCR_of_not_idle (n : Fin 8) (v : Word) (h : s.drvState ≠ .idle) :
    hostWriteCR s n v = s :=
  (hostWriteCR_cases s n v).resolve_right fun hc => h hc.1

theorem step_keeps_configuration (h : step s = .next t) : SameConfig s t := by
  rcases step_cases h with rfl | ⟨-, -, he⟩ | ⟨-, i, -, he⟩
  · exact ⟨rfl, rfl, rfl, rfl, rfl⟩
  · exact exec_keeps_configuration (s := takeStart s) he
  · exact exec_keeps_configuration he

/-- A step that is not `DERIVE`, which stands in phase 1, keeps the parameter file. -/
theorem step_keeps_parameterFile (h : step s = .next t) :
    (s.drvState = .running ∧ s.phase = 1) ∨ (t.pr = s.pr ∧ t.pvalid = s.pvalid) := by
  rcases step_cases h with rfl | ⟨-, -, he⟩ | ⟨hr, i, hop, he⟩
  · exact .inr ⟨rfl, rfl⟩
  · exact .inr (exec_keeps_parameterFile (i := .start) (s := takeStart s) nofun he)
  · by_cases hi : i = .derive
    · exact .inl ⟨hr, by rw [phase_of_opOfPhase hop, hi]; rfl⟩
    · exact .inr (exec_keeps_parameterFile hi he)

theorem step_keeps_pvalid (h : step s = .next t) (hv : s.pvalid = true) : t.pvalid = true := by
  rcases step_cases h with rfl | ⟨-, -, he⟩ | ⟨-, i, -, he⟩
  · exact hv
  · exact exec_keeps_pvalid (s := takeStart s) he hv
  · exact exec_keeps_pvalid he hv

/-- Settles O14: host writes act in `IDLE` only, no operation writes CR2 to CR6, and of the operations
`DERIVE` alone writes the parameter file. -/
theorem configurationFrozen : Obligations.ConfigurationFrozen := by
  refine ⟨fun s n v => hostWriteCR_of_not_idle n v, fun s t h => ?_⟩
  obtain ⟨hm, hsr, hrr, hbw, hdev⟩ := step_keeps_configuration h
  exact ⟨hm, hsr, hrr, hbw, hdev, step_keeps_parameterFile h, step_keeps_pvalid h⟩

end Sys2Proof.Machine
end

section
/-! # What `DEC` makes of the bytes, and the results of `READ`, `WRITE` and `FLUSH` -/

namespace Sys2Proof.Machine

variable {s : State}

/-! ## Input samples (R67 to R69) -/

/-- The first `w` of `n` consecutive numbers. -/
theorem take_range' (a : Nat) {w n : Nat} (h : w ≤ n) :
    (List.range' a n).take w = List.range' a w := by
  obtain ⟨m, rfl⟩ := Nat.exists_eq_add_of_le h
  rw [← List.range'_append_1]
  exact List.take_left' List.length_range'

/-- Group `k` of the chunk is the bytes of `BUF` from `w * k` on (R69). -/
theorem group_of_chunk {w k : Nat} (h : w * k + w ≤ s.bufLen) :
    ((chunk s).drop (k * w)).take w = (List.range' (w * k) w).map (byteAt s .buf) := by
  rw [chunk, reads_eq_map, ← List.map_drop, List.drop_range', ← List.map_take,
    take_range' _ (by rw [Nat.mul_comm]; omega), Nat.zero_add, Nat.mul_one, Nat.mul_comm]
  rfl

/-- Element `k` of `CBUF` after `DEC.t` is made of group `k` (R150, R151). -/
theorem decodeChunk_cbuf_getElem? {τ : SampleType} {k : Nat} (h : k < s.bufLen / wIn τ) :
    (decodeChunk τ s).cbuf[k]? =
      some (cvt τ ((List.range' (wIn τ * k) (wIn τ)).map (byteAt s .buf))) := by
  have hgroup : wIn τ * k + wIn τ ≤ s.bufLen := by
    rw [← Nat.mul_succ, Nat.mul_comm]
    exact (Nat.le_div_iff_mul_le (wIn_pos τ)).1 h
  have hlen : (chunk s).length = s.bufLen := reads_length _ _ _ _
  rw [decodeChunk_cbuf, writeArray, List.getElem?_append_left
    (by rw [decodeSamples_length, hlen]; exact h), decodeSamples, List.getElem?_map,
    groups_getElem? _ _ _ _ (by rw [hlen]; exact h), Option.map_some, group_of_chunk hgroup]

/-- Four bytes as one word, the first byte lowest (R67). -/
theorem ofNat_leNat_four (a b c d : Byte) :
    BitVec.ofNat 32 (leNat [a, b, c, d]) = d ++ c ++ b ++ a := by
  have ha := a.isLt
  have hb := b.isLt
  have hc := c.isLt
  have hd := d.isLt
  apply BitVec.eq_of_toNat_eq
  simp only [BitVec.toNat_append, BitVec.toNat_ofNat, leNat]
  rw [← Nat.shiftLeft_add_eq_or_of_lt hc, ← Nat.shiftLeft_add_eq_or_of_lt hb,
    ← Nat.shiftLeft_add_eq_or_of_lt ha]
  simp only [Nat.shiftLeft_eq]
  omega

/-- Settles O16: each type's map on the bytes of group `k`. -/
theorem decSamplesFromBytes : Obligations.DecSamplesFromBytes := by
  refine ⟨fun s k h => ⟨_, exec_decOf .s8 s, decodeChunk_cbuf_getElem? h⟩,
    fun s k h => ⟨_, exec_decOf .u8 s, decodeChunk_cbuf_getElem? h⟩,
    fun s k h => ⟨_, exec_decOf .i16 s, decodeChunk_cbuf_getElem? h⟩,
    fun s k h => ⟨_, exec_decOf .f32 s, ?_⟩⟩
  rw [← ofNat_leNat_four, ← ofNat_leNat_four]
  exact decodeChunk_cbuf_getElem? h

/-! ## `READ`, `WRITE` and `FLUSH` where the port answers -/

theorem exec_read_of_ok {n : Nat} {rest : List SrcReply} (h : s.srcReplies = .ok n :: rest) :
    exec .read s = .next (storeChunk (delivered s n) { s with
      srcReplies := rest, trace := s.trace ++ [.srcRead Config.bufferSize] }) := by
  simp only [exec, execRead, h]
  rfl

/-- What has been delivered and what is left are the unread input (R63). -/
theorem delivered_append_drop (s : State) (n : Nat) :
    delivered s n ++ s.inRest.drop (delivered s n).length = s.inRest :=
  List.prefix_iff_eq_append.1 (List.take_prefix _ _)

/-- Settles O46: what the read delivered is stored from 0 on and read back. -/
theorem readStoresChunk : Obligations.ReadStoresChunk := fun s n _ h =>
  ⟨_, delivered s n, exec_read_of_ok h, rfl, (delivered_append_drop s n).symm, rfl,
    delivered_length_le s n, shortRead_iff _, rfl, reads_write .buf s.buf 0 (delivered s n),
    fun _ ha => byteAt_beyond_write .buf s.buf (delivered s n) ha, rfl⟩

/-- The bytes of `OBUF` in rising order (R233). -/
theorem outBytes_eq_map (s : State) : outBytes s = (List.range s.obLen).map (byteAt s .obuf) := by
  rw [outBytes, reads_eq_map, List.range_eq_range']
  rfl

theorem exec_write_of_ok {rest : List SnkReply} (h : s.snkReplies = .ok :: rest) :
    exec .write s = .next (advance { s with
      snkReplies := rest, trace := s.trace ++ [.snkWrite s.obLen]
      outAcc := s.outAcc ++ outBytes s }) := by
  simp only [exec, execWrite, h]
  rfl

theorem exec_write_of_err {rest : List SnkReply} (h : s.snkReplies = .err :: rest) :
    exec .write s = .next (raiseFault fWrite { s with
      snkReplies := rest, trace := s.trace ++ [.snkWrite s.obLen]
      outAcc := s.outAcc ++ (outBytes s).take (Config.drawNat s.draws), draws := s.draws + 1 }) := by
  simp only [exec, execWrite, h]
  rfl

/-- Settles O48: all of `OBUF[0 .. OB_LEN]` is handed over, or the part of it that was taken before the
fault. -/
theorem writeResult : Obligations.WriteResult := by
  refine ⟨fun s rest h => ?_, fun s rest h => ?_⟩
  · rw [← outBytes_eq_map]
    exact exec_write_of_ok h
  · rw [← outBytes_eq_map]
    refine ⟨_, _, exec_write_of_err h, List.take_prefix (Config.drawNat s.draws) _, ?_,
      (by decide : Config.exitFail ≠ 0)⟩
    simp [raiseFault, fWrite]

/-- Settles O49: the sink's answer is the only thing `FLUSH` looks at. -/
theorem flushResult : Obligations.FlushResult := by
  refine ⟨fun s rest h => ?_, fun s rest h => ?_⟩ <;> simp only [exec, execFlush, h] <;> rfl

end Sys2Proof.Machine
end

section
/-! # Operation words

An operation's word is read back as that operation, a word that is no row's code is reserved, and every
word the sequencer issues is an operation's. -/

namespace Sys2Proof.Machine

variable {s s' : State} {w : BitVec 8}

/-! ## The decoder -/

/-- Every operation's word is read back as that operation (R104). -/
@[simp] theorem decodeWord_encodeWord (i : Instr) : decodeWord (encodeWord i) = .ok i := by
  cases i <;> rfl

/-- The decoder reads one byte and leaves the rest (R109). -/
theorem decode_cons_of_decodeWord {i : Instr} (hd : decodeWord w = .ok i) (rest : List Byte) :
    decode (w :: rest) = .ok (i, rest) := by
  simp [decode, hd]

/-- Settles O1: the one byte of `encode i` is its word, which decodes to `i`. -/
theorem decodeOfEncode : Obligations.DecodeOfEncode := fun i rest =>
  decode_cons_of_decodeWord (decodeWord_encodeWord i) rest

/-- Settles O4: each word is the encoding of the operation the list gives it. -/
theorem specWordsDecode : Obligations.SpecWordsDecode :=
  ⟨decodeWord_encodeWord .decI16, decodeWord_encodeWord .encU8, decodeWord_encodeWord .encF32Sq,
    decodeWord_encodeWord .init, decodeWord_encodeWord .demod, decodeWord_encodeWord .next⟩

/-- A word decodes to no operation where the search of the table fails. -/
theorem decodeWord_ne_ok_iff :
    (∀ i, decodeWord w ≠ .ok i) ↔ opTable.find? (fun r => w &&& r.mask == r.code) = none := by
  unfold decodeWord
  cases opTable.find? (fun r => w &&& r.mask == r.code) <;> simp

/-- The rows of the table compare all eight bits (R109). -/
theorem mask_of_mem_opTable : ∀ r ∈ opTable, r.mask = BitVec.allOnes 8 := by decide

/-- The words of the operation list, as numbers (R104). -/
theorem map_code_opTable : opTable.map (fun r => r.code.toNat) =
    [0x00, 0x01, 0x02, 0x03, 0x08, 0x09, 0x0A, 0x0B, 0x0C, 0x0D, 0x0E, 0x0F, 0x10, 0x11,
      0x18, 0x19, 0x1A, 0x1B, 0x1C, 0x1D, 0x1E, 0x1F] := rfl

/-- A word decodes to no operation exactly if it is the code of no row. -/
theorem decodeWord_ne_ok_iff_not_mem :
    (∀ i, decodeWord w ≠ .ok i) ↔ w.toNat ∉ opTable.map (fun r => r.code.toNat) := by
  have hrow : ∀ r ∈ opTable, (w &&& r.mask = r.code ↔ r.code.toNat = w.toNat) := fun r hr => by
    rw [mask_of_mem_opTable r hr, BitVec.and_allOnes, eq_comm, BitVec.toNat_eq]
  rw [decodeWord_ne_ok_iff, List.find?_eq_none, List.mem_map]
  simp only [beq_iff_eq, not_exists, not_and]
  exact forall₂_congr fun r hr => not_congr (hrow r hr)

/-- The reserved words are the three gaps of the operation list (R107). -/
theorem decodeWord_ne_ok_iff_reserved :
    (∀ i, decodeWord w ≠ .ok i) ↔
      (0x04 ≤ w.toNat ∧ w.toNat ≤ 0x07) ∨ (0x12 ≤ w.toNat ∧ w.toNat ≤ 0x17) ∨ 0x20 ≤ w.toNat := by
  rw [decodeWord_ne_ok_iff_not_mem, map_code_opTable]
  simp only [List.mem_cons, List.not_mem_nil, or_false]
  omega

/-- A reserved word is refused (R107). -/
theorem runWord_of_reserved (h : ∀ i, decodeWord w ≠ .ok i) (s : State) :
    runWord w s = .refused .reservedWord := by
  cases hd : decodeWord w with
  | ok i => exact absurd hd (h i)
  | error e => simp [runWord, decode, hd]

/-! ## The words the sequencer issues -/

/-- Every word formed from a phase and `MODE` is an operation's (R105). -/
theorem decodeWord_of_opword {p : BitVec 4} {mode : Word} (h : opword p mode = some w) :
    ∃ i, decodeWord w = .ok i := by
  have hp : p.toNat ≤ 11 := by
    by_contra hp
    simp [opword_eq_none mode (show 12 ≤ p.toNat by omega)] at h
  obtain ⟨i, hi⟩ := opOfPhase_isSome mode hp
  obtain ⟨v, hv, hd⟩ := opword_of_opOfPhase hi
  obtain rfl : v = w := Option.some.inj (hv.symm.trans h)
  exact ⟨i, hd⟩

/-- What is issued is `START` in `IDLE`, or the word of the phase in `RUNNING` (R22, R33). -/
theorem issue_run_cases (h : issue s = .run w s') :
    (s.drvState = .idle ∧ s.startReq = true ∧ w = 0x18 ∧ s' = takeStart s) ∨
    (s.drvState = .running ∧ opword s.phase s.mode = some w ∧ s' = s) := by
  unfold issue at h
  cases hd : s.drvState with
  | idle =>
    cases hq : s.startReq with
    | true =>
      simp only [hd, hq, if_true, Issue.run.injEq] at h
      obtain ⟨rfl, rfl⟩ := h
      exact .inl ⟨rfl, rfl, rfl, rfl⟩
    | false => simp [hd, hq] at h
  | running =>
    cases hw : opword s.phase s.mode with
    | some v =>
      simp only [hd, hw, Issue.run.injEq] at h
      obtain ⟨rfl, rfl⟩ := h
      exact .inr ⟨rfl, rfl, rfl⟩
    | none => simp [hd, hw] at h
  | stopped => simp [hd] at h
  | failed => simp [hd] at h

/-- No word the sequencer issues is reserved (R107). -/
theorem decodeWord_of_issue_run (h : issue s = .run w s') : ∃ i, decodeWord w = .ok i := by
  rcases issue_run_cases h with ⟨-, -, rfl, -⟩ | ⟨-, hw, -⟩
  · exact ⟨.start, decodeWord_encodeWord .start⟩
  · exact decodeWord_of_opword hw

/-- Settles O2: the reserved words are the gaps of the operation list, and no issued word is in one. -/
theorem reservedWordsRefused : Obligations.ReservedWordsRefused :=
  ⟨fun _ => decodeWord_ne_ok_iff_reserved, fun _ s h => runWord_of_reserved h s,
    fun _ _ _ h => decodeWord_of_issue_run h⟩

/-! ## The words of phases 4 and 8 as numbers -/

theorem toNat_modeIntypeCode (mode : Word) : (modeIntypeCode mode).toNat = mode.toNat % 4 := by
  simp [modeIntypeCode]

theorem toNat_modeOuttypeCode (mode : Word) :
    (modeOuttypeCode mode).toNat = mode.toNat / 4 % 4 := by
  simp [modeOuttypeCode, Nat.shiftRight_eq_div_pow]

theorem toNat_modeSqField (mode : Word) :
    (mode.extractLsb' 4 1).toNat = mode.toNat / 16 % 2 := by
  simp [Nat.shiftRight_eq_div_pow]

/-- `DEC`'s word is its type code (R103). -/
theorem toNat_decWord : ∀ c : BitVec 2, (0x00 ||| c.zeroExtend 8 : BitVec 8).toNat = c.toNat := by
  decide

/-- `ENC`'s word is assembled from disjoint fields, so their values add up (R103). -/
theorem toNat_encWord : ∀ (q : BitVec 1) (c : BitVec 2),
    (0x08 ||| (q.zeroExtend 8 <<< 2) ||| c.zeroExtend 8 : BitVec 8).toNat =
      8 + 4 * q.toNat + c.toNat := by
  decide

/-- At a phase never held the machine refuses (R105). -/
theorem step_of_phaseNeverHeld (hr : s.drvState = .running) (hp : 12 ≤ s.phase.toNat) :
    step s = .refused .phaseNeverHeld := by
  simp [step, issue, hr, opword_eq_none s.mode hp]

/-- Settles O3: phases 4 and 8 by the value of their fields, the others by the table itself. -/
theorem operationWordOfPhase : Obligations.OperationWordOfPhase := by
  refine ⟨fun _ => step_of_phaseNeverHeld, fun p mode => ?_⟩
  unfold opword
  generalize p.toNat = k
  match k with
  | 4 => exact congrArg some ((toNat_decWord _).trans (toNat_modeIntypeCode mode))
  | 8 =>
    refine congrArg some ((toNat_encWord _ _).trans ?_)
    rw [toNat_modeSqField, toNat_modeOuttypeCode]
  | 0 | 1 | 2 | 3 | 5 | 6 | 7 | 9 | 10 | 11 | _ + 12 => rfl

end Sys2Proof.Machine
end

section
/-! # The grid of binary32 magnitudes, and rounding to it (R127, R129) -/

namespace Sys2Proof.Machine

/-! ## The grid

Each magnitude is `k * 2^sh` units with `k` at most `2^24`, and its pattern is `sh * 2^23 + k`: the
carry out of the fraction is the step into the next binade. -/

/-- The magnitude `k * 2^sh` has the pattern `sh * 2^23 + k`, subnormal where `sh = 0`. -/
theorem magUnits_grid {sh k : Nat} (hk : k ≤ 2 ^ 24) (hn : sh = 0 ∨ 2 ^ 23 ≤ k) :
    magUnits (sh * 2 ^ 23 + k) = k * 2 ^ sh := by
  unfold magUnits
  by_cases hsub : k < 2 ^ 23
  · obtain rfl : sh = 0 := by omega
    rw [Nat.zero_mul, Nat.zero_add, if_pos hsub, Nat.pow_zero, Nat.mul_one]
  · by_cases htop : k = 2 ^ 24
    · have he : (sh * 2 ^ 23 + k) / 2 ^ 23 - 1 = sh + 1 := by omega
      have hf : (sh * 2 ^ 23 + k) % 2 ^ 23 = 0 := by omega
      rw [if_neg (by omega), he, hf, htop, Nat.pow_succ]
      omega
    · have he : (sh * 2 ^ 23 + k) / 2 ^ 23 - 1 = sh := by omega
      have hf : 2 ^ 23 + (sh * 2 ^ 23 + k) % 2 ^ 23 = k := by omega
      rw [if_neg (by omega), he, hf]

/-- Every pattern without sign is on the grid. -/
theorem exists_grid (p : Nat) : ∃ sh k, p = sh * 2 ^ 23 + k ∧ k < 2 ^ 24 ∧ (sh = 0 ∨ 2 ^ 23 ≤ k) :=
  ⟨p / 2 ^ 23 - 1, p - (p / 2 ^ 23 - 1) * 2 ^ 23, by omega, by omega, by omega⟩

/-- A greater pattern denotes a greater magnitude (R100). -/
theorem magUnits_strictMono : StrictMono magUnits := by
  refine strictMono_nat_of_lt_succ fun p => ?_
  obtain ⟨sh, k, rfl, hk, hn⟩ := exists_grid p
  rw [Nat.add_assoc, magUnits_grid hk.le hn, magUnits_grid (Nat.succ_le_of_lt hk) (by omega)]
  exact Nat.mul_lt_mul_of_pos_right k.lt_succ_self (Nat.two_pow_pos sh)

/-- Every number of at most 24 significant bits is the magnitude of a pattern. -/
theorem exists_magUnits_eq (sh : Nat) {k : Nat} (hk : k ≤ 2 ^ 24) : ∃ p, magUnits p = k * 2 ^ sh := by
  induction sh generalizing k with
  | zero => exact ⟨k, by simpa using magUnits_grid (sh := 0) hk (.inl rfl)⟩
  | succ sh ih =>
    by_cases hn : 2 ^ 23 ≤ k
    · exact ⟨_, magUnits_grid hk (.inr hn)⟩
    · obtain ⟨p, hp⟩ := ih (k := 2 * k) (by omega)
      exact ⟨p, by rw [hp, Nat.pow_succ]; ring⟩

theorem magUnits_zero : magUnits 0 = 0 := rfl

/-- The magnitude that would follow the greatest finite one. -/
theorem magUnits_infMag : magUnits infMag = 2 ^ 24 * 2 ^ 253 :=
  magUnits_grid (sh := 253) le_rfl (.inr (by decide))

/-! ## Rounding -/

/-- How far the magnitude of pattern `p` lies from `num / den`, in units of `1 / den`. -/
def roundError (num den p : Nat) : Nat := ((magUnits p * den : Int) - num).natAbs

/-- `p` is a pattern nearest to `num / den` among all patterns, and the even one of two (R129). -/
def IsNearestEven (num den p : Nat) : Prop :=
  ∀ q, roundError num den p ≤ roundError num den q ∧
    (q ≠ p → roundError num den p = roundError num den q → p % 2 = 0)

theorem magUnits_mul_lt {den a b : Nat} (hden : 0 < den) (h : a < b) :
    magUnits a * den < magUnits b * den :=
  Nat.mul_lt_mul_of_pos_right (magUnits_strictMono h) hden

theorem roundError_of_le {num den p : Nat} (h : magUnits p * den ≤ num) :
    roundError num den p = num - magUnits p * den := by
  unfold roundError
  omega

theorem roundError_of_ge {num den p : Nat} (h : num ≤ magUnits p * den) :
    roundError num den p = magUnits p * den - num := by
  unfold roundError
  omega

/-- Where `num / den` lies between the neighbours `p` and `p + 1`, the upper one is taken from past the
middle on, and in the middle if `p` is odd (R129). -/
theorem isNearestEven_of_neighbours {num den p : Nat} (hden : 0 < den)
    (hlo : magUnits p * den ≤ num) (hhi : num ≤ magUnits (p + 1) * den) :
    IsNearestEven num den
      (if magUnits p * den + magUnits (p + 1) * den < 2 * num ∨
        (2 * num = magUnits p * den + magUnits (p + 1) * den ∧ p % 2 = 1) then p + 1 else p) := by
  have hp := roundError_of_le hlo
  have hp1 := roundError_of_ge hhi
  have hpp := magUnits_mul_lt hden (Nat.lt_add_one p)
  intro q
  rcases lt_trichotomy q p with hq | rfl | hq
  · have := magUnits_mul_lt hden hq
    have := roundError_of_le (num := num) (den := den) (p := q) (by omega)
    split <;> omega
  · split <;> omega
  · obtain hq | rfl : p + 1 < q ∨ q = p + 1 := by omega
    · have := magUnits_mul_lt hden hq
      have := roundError_of_ge (num := num) (den := den) (p := q) (by omega)
      split <;> omega
    · split <;> omega

/-- The shift `roundMag` takes leaves at most 24 bits of the quotient. -/
theorem div_two_pow_log2_sub_lt (n : Nat) : n / 2 ^ (Nat.log2 n - 23) < 2 ^ 24 := by
  rw [Nat.div_lt_iff_lt_mul (Nat.two_pow_pos _), ← Nat.pow_add]
  exact Nat.lt_log2_self.trans_le (Nat.pow_le_pow_right (by decide) (by omega))

/-- It leaves 24 bits of the quotient, or it is no shift at all. -/
theorem le_div_two_pow_log2_sub (n : Nat) :
    Nat.log2 n - 23 = 0 ∨ 2 ^ 23 ≤ n / 2 ^ (Nat.log2 n - 23) := by
  refine or_iff_not_imp_left.2 fun h => ?_
  rw [Nat.le_div_iff_mul_le (Nat.two_pow_pos _), ← Nat.pow_add]
  have hn : n ≠ 0 := fun h0 => h (by rw [h0]; rfl)
  exact (Nat.pow_le_pow_right (by decide) (by omega)).trans (Nat.log2_self_le hn)

/-- `roundMag` takes a nearest pattern, even on a tie, and cuts it off at the infinity (R129). -/
theorem exists_isNearestEven (num : Nat) {den : Nat} (hden : 0 < den) :
    ∃ p, IsNearestEven num den p ∧ roundMag num den = min p infMag := by
  refine ⟨_, ?_, rfl⟩
  have hk := div_two_pow_log2_sub_lt (num / den)
  have hn := le_div_two_pow_log2_sub (num / den)
  rw [Nat.div_div_eq_div_mul] at hk hn
  generalize Nat.log2 (num / den) - 23 = sh at hk hn ⊢
  have hr := Nat.mod_lt num (Nat.mul_pos hden (Nat.two_pow_pos sh))
  have hnum := Nat.div_add_mod num (den * 2 ^ sh)
  generalize num / (den * 2 ^ sh) = k at hk hn hnum ⊢
  have hlo : magUnits (sh * 2 ^ 23 + k) * den = den * 2 ^ sh * k := by
    rw [magUnits_grid hk.le hn]; ring
  have hhi : magUnits (sh * 2 ^ 23 + k + 1) * den = den * 2 ^ sh * k + den * 2 ^ sh := by
    rw [Nat.add_assoc, magUnits_grid (k := k + 1) hk (by omega)]; ring
  have h := isNearestEven_of_neighbours (num := num) hden (hlo.trans_le (by omega)) (by omega)
  rw [add_ite, ← Nat.add_assoc]
  convert h using 2
  simp only [Bool.or_eq_true, Bool.and_eq_true, decide_eq_true_eq]
  omega

/-! ## What the rounded magnitude is bounded by -/

/-- A magnitude of at most `p` rounds to at most `p`. -/
theorem roundMag_le_of_le {num den p : Nat} (hden : 0 < den) (h : num ≤ magUnits p * den) :
    roundMag num den ≤ p := by
  obtain ⟨g, hg, hr⟩ := exists_isNearestEven num hden
  refine (hr.trans_le (Nat.min_le_left ..)).trans (Nat.le_of_not_lt fun hpg => ?_)
  have hlt := magUnits_mul_lt hden hpg
  have hnear := (hg p).1
  rw [roundError_of_ge h, roundError_of_ge (h.trans hlt.le)] at hnear
  omega

/-- A magnitude that a pattern denotes rounds to that pattern. -/
theorem roundMag_exact {den p : Nat} (hden : 0 < den) (hp : p ≤ infMag) :
    roundMag (magUnits p * den) den = p := by
  obtain ⟨g, hg, hr⟩ := exists_isNearestEven (magUnits p * den) hden
  have hnear : (magUnits g * den : Int) - (magUnits p * den : Nat) = 0 := by
    have := (hg p).1
    rw [roundError_of_le le_rfl, roundError] at this
    omega
  have hmul : magUnits g * den = magUnits p * den := by exact_mod_cast sub_eq_zero.1 hnear
  rw [hr, magUnits_strictMono.injective (Nat.eq_of_mul_eq_mul_right hden hmul),
    Nat.min_eq_left hp]

theorem roundMag_zero {den : Nat} (hden : 0 < den) : roundMag 0 den = 0 :=
  Nat.le_zero.1 (roundMag_le_of_le hden (Nat.zero_le _))

/-- A finite rounded magnitude is the nearest pattern, even on a tie. -/
theorem isNearestEven_roundMag {num den : Nat} (hden : 0 < den) (h : roundMag num den < infMag) :
    IsNearestEven num den (roundMag num den) := by
  obtain ⟨g, hg, hr⟩ := exists_isNearestEven num hden
  rwa [show roundMag num den = g by omega]

/-- The greatest finite magnitude. -/
theorem magUnits_infMag_sub_one : magUnits (infMag - 1) = (2 ^ 24 - 1) * 2 ^ 253 :=
  magUnits_grid (sh := 253) (k := 2 ^ 24 - 1) (by decide) (.inr (by decide))

/-- The infinity is taken from the middle between the greatest finite magnitude and the next on: in the
middle itself the greatest finite pattern is odd (R129). -/
theorem roundMag_eq_infMag_iff {num den : Nat} (hden : 0 < den) :
    roundMag num den = infMag ↔ (2 ^ 25 - 1) * 2 ^ 252 * den ≤ num := by
  obtain ⟨g, hg, hr⟩ := exists_isNearestEven num hden
  have hodd : (infMag - 1) % 2 = 1 := by decide
  have htwo : (2 ^ 253 : Nat) = 2 * 2 ^ 252 := Nat.pow_succ'
  have hmax : magUnits (infMag - 1) * den = (2 ^ 25 - 2) * (2 ^ 252 * den) := by
    rw [magUnits_infMag_sub_one, htwo]; ring
  have hnext : magUnits infMag * den = 2 ^ 25 * (2 ^ 252 * den) := by
    rw [magUnits_infMag, htwo]; ring
  have hpos : 0 < 2 ^ 252 * den := Nat.mul_pos (Nat.two_pow_pos _) hden
  rw [hr, Nat.mul_assoc]
  generalize 2 ^ 252 * den = u at hmax hnext hpos ⊢
  have ⟨hnearMax, _⟩ := hg (infMag - 1)
  have ⟨hnearNext, heven⟩ := hg infMag
  unfold roundError at hnearMax hnearNext heven
  constructor
  · intro h
    obtain rfl | hlt : g = infMag ∨ infMag < g := by omega
    · omega
    · have := magUnits_mul_lt hden hlt
      omega
  · intro h
    by_contra hfin
    obtain rfl | hlt : g = infMag - 1 ∨ g < infMag - 1 := by omega
    · omega
    · have := magUnits_mul_lt hden hlt
      omega

end Sys2Proof.Machine
end

section
/-! # The operations on finite operands are the exact results, rounded (R129) -/

namespace Sys2Proof.Machine

variable {a b x : F32}

/-! ## Classes -/

theorem isNaN_of_isFinite (h : isFinite x = true) : isNaN x = false := by
  simp only [isFinite, isNaN, decide_eq_true_eq, decide_eq_false_iff_not] at h ⊢
  omega

theorem isInf_of_isFinite (h : isFinite x = true) : isInf x = false := by
  simp only [isFinite, isInf, decide_eq_true_eq, beq_eq_false_iff_ne] at h ⊢
  omega

theorem isNaN_of_isInf (h : isInf x = true) : isNaN x = false := by
  simp only [isInf, isNaN, beq_iff_eq, decide_eq_false_iff_not] at h ⊢
  omega

theorem isFinite_of_isNaN (h : isNaN x = true) : isFinite x = false := by
  simp only [isFinite, isNaN, decide_eq_true_eq, decide_eq_false_iff_not] at h ⊢
  omega

theorem isFinite_fNeg : isFinite (fNeg x) = isFinite x := by rw [isFinite, isFinite, fMag_fNeg]

/-- A pattern is its sign and its magnitude. -/
theorem eq_of_fSign_of_fMag (hs : fSign a = fSign b) (hm : fMag a = fMag b) : a = b := by
  apply BitVec.eq_of_toNat_eq
  simp only [fSign, fMag, BitVec.msb_eq_decide, decide_eq_decide] at hs hm
  omega

/-- The value of a pattern without the sign bit. -/
theorem units_of_fSign_false (h : fSign x = false) : units x = magUnits (fMag x) := by
  rw [units, h, if_neg Bool.false_ne_true]

/-- The value of a pattern with the sign bit. -/
theorem units_of_fSign_true (h : fSign x = true) : units x = -(magUnits (fMag x) : Int) := by
  rw [units, h, if_pos rfl]

theorem units_eq_zero_iff : units x = 0 ↔ fMag x = 0 := by
  rw [← Int.natAbs_eq_zero, natAbs_units, ← magUnits_zero]
  exact magUnits_strictMono.injective.eq_iff

/-- The sign bit of a value that is no zero. -/
theorem fSign_eq (h : units x ≠ 0) : fSign x = decide (units x < 0) := by
  cases hs : fSign x with
  | false =>
    have := units_of_fSign_false hs
    exact (decide_eq_false (by omega)).symm
  | true =>
    have := units_of_fSign_true hs
    exact (decide_eq_true (by omega)).symm

/-! ## The literals of the formulas (R11) -/

theorem units_fOne : units fOne = 2 ^ 149 := by decide

theorem units_fMinusOne : units fMinusOne = -(2 ^ 149) := by decide

theorem units_fTwo : units fTwo = (2 * 2 ^ 149 : Nat) := by decide

theorem units_f128 : units f128 = 128 * 2 ^ 149 := by decide

theorem units_f255 : units f255 = (255 * 2 ^ 149 : Nat) := by decide

theorem units_f32767 : units f32767 = 32767 * 2 ^ 149 := by decide

theorem units_f32768 : units f32768 = (2 ^ 15 * 2 ^ 149 : Nat) := by decide

/-! ## The four operations -/

/-- The sum of two finite values is rounded; an exact zero is negative where both terms are (R129). -/
theorem addNum_of_finite (op : FpOp) (ha : isFinite a = true) (hb : isFinite b = true) :
    fMag (addNum op a b) = roundMag (units a + units b).natAbs 1 ∧
    fSign (addNum op a b) =
      if units a + units b = 0 then fSign a && fSign b else decide (units a + units b < 0) := by
  simp only [addNum, isInf_of_isFinite ha, isInf_of_isFinite hb]
  by_cases h0 : units a + units b = 0
  · simp [h0, fMag_pack, fSign_pack, roundMag_zero]
  · simp [h0, fMag_pack_roundMag, fSign_pack_roundMag]

theorem fadd_of_finite (ha : isFinite a = true) (hb : isFinite b = true) :
    fMag (fadd a b) = roundMag (units a + units b).natAbs 1 ∧
    fSign (fadd a b) =
      if units a + units b = 0 then fSign a && fSign b else decide (units a + units b < 0) := by
  simpa [fadd, isNaN_of_isFinite ha, isNaN_of_isFinite hb] using addNum_of_finite .add ha hb

theorem fsub_of_finite (ha : isFinite a = true) (hb : isFinite b = true) :
    fMag (fsub a b) = roundMag (units a - units b).natAbs 1 ∧
    fSign (fsub a b) =
      if units a - units b = 0 then fSign a && !fSign b else decide (units a - units b < 0) := by
  have h := addNum_of_finite .sub ha (isFinite_fNeg.trans hb)
  rw [units_fNeg, ← Int.sub_eq_add_neg, fSign_fNeg] at h
  simpa [fsub, isNaN_of_isFinite ha, isNaN_of_isFinite hb] using h

theorem fmul_of_finite (ha : isFinite a = true) (hb : isFinite b = true) :
    fMag (fmul a b) = roundMag (units a * units b).natAbs (2 ^ 149) ∧
    fSign (fmul a b) = (fSign a != fSign b) := by
  simp [fmul, isNaN_of_isFinite ha, isNaN_of_isFinite hb, isInf_of_isFinite ha,
    isInf_of_isFinite hb, fMag_pack_roundMag, fSign_pack_roundMag, Int.natAbs_mul, natAbs_units]

theorem fdiv_of_finite (ha : isFinite a = true) (hb : isFinite b = true) (h0 : units b ≠ 0) :
    fMag (fdiv a b) = roundMag ((units a).natAbs * 2 ^ 149) (units b).natAbs ∧
    fSign (fdiv a b) = (fSign a != fSign b) := by
  have hm : fMag b ≠ 0 := mt units_eq_zero_iff.2 h0
  simp [fdiv, isNaN_of_isFinite ha, isNaN_of_isFinite hb, isInf_of_isFinite ha,
    isInf_of_isFinite hb, hm, fMag_pack_roundMag, fSign_pack_roundMag, natAbs_units]

/-- Settles O22: the grid's nearest pattern, and each operation's exact result rounded to it. -/
theorem roundingIsNearestEven : Obligations.RoundingIsNearestEven :=
  ⟨fun _ _ hden => ⟨fun hfin q _ => isNearestEven_roundMag hden hfin q, roundMag_eq_infMag_iff hden⟩,
    fun _ _ ha hb => ⟨fadd_of_finite ha hb, fsub_of_finite ha hb, fmul_of_finite ha hb,
      fdiv_of_finite ha hb⟩⟩

/-! ## Rounded results and their values -/

/-- `x` is `n / den` units, rounded (R129); the sign of a zero is left open. -/
structure Rounds (x : F32) (n : Int) (den : Nat) : Prop where
  den_pos : 0 < den
  mag : fMag x = roundMag n.natAbs den
  sign : n ≠ 0 → fSign x = decide (n < 0)

theorem rounds_fadd (ha : isFinite a = true) (hb : isFinite b = true) :
    Rounds (fadd a b) (units a + units b) 1 :=
  ⟨Nat.one_pos, (fadd_of_finite ha hb).1, fun h => by rw [(fadd_of_finite ha hb).2, if_neg h]⟩

theorem rounds_fsub (ha : isFinite a = true) (hb : isFinite b = true) :
    Rounds (fsub a b) (units a - units b) 1 :=
  ⟨Nat.one_pos, (fsub_of_finite ha hb).1, fun h => by rw [(fsub_of_finite ha hb).2, if_neg h]⟩

/-- The product of two values that are no zeros is negative where their signs differ. -/
theorem bne_fSign (ha : units a ≠ 0) (hb : units b ≠ 0) :
    (fSign a != fSign b) = decide (units a * units b < 0) := by
  have hneg : units a * units b < 0 ↔ ¬ (units a < 0 ↔ units b < 0) := by
    rw [mul_neg_iff]
    omega
  rw [fSign_eq ha, fSign_eq hb, Bool.eq_iff_iff, bne_iff_ne, decide_eq_true_eq, hneg, ne_eq,
    decide_eq_decide]

theorem rounds_fmul (ha : isFinite a = true) (hb : isFinite b = true) :
    Rounds (fmul a b) (units a * units b) (2 ^ 149) :=
  ⟨Nat.two_pow_pos 149, (fmul_of_finite ha hb).1,
    fun h => (fmul_of_finite ha hb).2.trans
      (bne_fSign (left_ne_zero_of_mul h) (right_ne_zero_of_mul h))⟩

/-- A quotient by a positive value of `den` units. -/
theorem rounds_fdiv {den : Nat} (ha : isFinite a = true) (hb : isFinite b = true) (hden : units b = den)
    (hpos : 0 < den) : Rounds (fdiv a b) (units a * 2 ^ 149) den := by
  have hb0 : 0 < units b := by omega
  obtain ⟨hm, hs⟩ := fdiv_of_finite ha hb hb0.ne'
  refine ⟨hpos, by rw [hm, hden, Int.natAbs_mul]; rfl, fun h => ?_⟩
  rw [hs, bne_fSign (left_ne_zero_of_mul h) hb0.ne', decide_eq_decide, mul_neg_iff]
  omega

theorem rounds_i2f (n : Int) : Rounds (i2f n) (n * 2 ^ 149) 1 := by
  refine ⟨Nat.one_pos, by rw [i2f, fMag_pack_roundMag, Int.natAbs_mul]; rfl, fun h => ?_⟩
  rw [i2f, fSign_pack_roundMag, decide_eq_decide]
  omega

/-- The value of a rounded result: the rounded magnitude with the exact result's sign. -/
theorem Rounds.units_eq {n : Int} {den : Nat} (h : Rounds x n den) :
    units x = if n < 0 then -(magUnits (roundMag n.natAbs den) : Int)
      else magUnits (roundMag n.natAbs den) := by
  obtain ⟨hden, hm, hs⟩ := h
  by_cases h0 : n = 0
  · subst h0
    have hz : fMag x = 0 := hm.trans (roundMag_zero hden)
    simp [units_eq_zero_iff.2 hz, roundMag_zero hden, magUnits_zero]
  · simp [units, hm, hs h0]

/-- A result of at most 24 significant bits below the overflow is not changed by rounding. -/
theorem Rounds.exact {n : Int} {den k sh : Nat} (h : Rounds x n den) (hk : k ≤ 2 ^ 24)
    (hn : n.natAbs = k * 2 ^ sh * den) (hlt : k * 2 ^ sh < 2 ^ 24 * 2 ^ 253) :
    isFinite x = true ∧ units x * den = n := by
  obtain ⟨p, hp⟩ := exists_magUnits_eq sh hk
  have hfin : p < infMag := magUnits_strictMono.lt_iff_lt.1 (by rwa [hp, magUnits_infMag])
  have hr : roundMag n.natAbs den = p := by rw [hn, ← hp, roundMag_exact h.den_pos hfin.le]
  refine ⟨by simpa [isFinite, h.mag, hr] using hfin, ?_⟩
  have hm : (magUnits p * den : Int) = n.natAbs := by rw [hp, hn]; push_cast; rfl
  rw [h.units_eq, hr]
  split
  · rw [neg_mul, hm]
    omega
  · rw [hm]
    omega

/-- A conversion of up to 24 bits is exact (R131, R140). -/
theorem i2f_exact {n : Int} (h : n.natAbs ≤ 2 ^ 24) :
    isFinite (i2f n) = true ∧ units (i2f n) = n * 2 ^ 149 := by
  have hlt : n.natAbs * 2 ^ 149 < 2 ^ 24 * 2 ^ 253 := (Nat.mul_le_mul_right _ h).trans_lt (by decide)
  obtain ⟨hf, hu⟩ := (rounds_i2f n).exact h (by rw [Int.natAbs_mul, Nat.mul_one]; rfl) hlt
  exact ⟨hf, by simpa using hu⟩

/-- Doubling is exact below `2^127` (R140): the pattern moves up one binade. -/
theorem fmul_fTwo_exact (h : fMag x < 0x7F000000) :
    isFinite (fmul fTwo x) = true ∧ units (fmul fTwo x) = 2 * units x := by
  have hfin : isFinite x = true := decide_eq_true (h.trans (by decide))
  obtain ⟨sh, k, hp, hk, hn⟩ := exists_grid (fMag x)
  have hm : magUnits (fMag x) = k * 2 ^ sh := by rw [hp, magUnits_grid hk.le hn]
  have hsh : sh + 1 ≤ 253 := by omega
  obtain ⟨hf, hu⟩ := (rounds_fmul (a := fTwo) (by decide) hfin).exact (k := k) (sh := sh + 1) hk.le
    (by rw [Int.natAbs_mul, natAbs_units x, hm, units_fTwo, Int.natAbs_natCast]; ring)
    (Nat.mul_lt_mul_of_lt_of_le hk (Nat.pow_le_pow_right (by decide) hsh) (Nat.two_pow_pos _))
  refine ⟨hf, ?_⟩
  rw [units_fTwo] at hu
  push_cast at hu
  omega

/-- Settles O24: both are exact by the width of the result; the two roundings are computed. -/
theorem exactConversionAndDoubling : Obligations.ExactConversionAndDoubling :=
  ⟨fun _ => i2f_exact, by decide, by decide, fun _ => fmul_fTwo_exact⟩

/-- Settles O20: the quotient `v * 2^149 / 2^15` has 16 significant bits. -/
theorem i16DecodeExact : Obligations.I16DecodeExact := by
  intro v hv
  have hs : (sint 16 v).natAbs ≤ 2 ^ 15 := by
    unfold sint
    split <;> omega
  obtain ⟨hi, hu⟩ := i2f_exact (n := sint 16 v) (by omega)
  have hr := rounds_fdiv hi (by decide) units_f32768 (by decide)
  rw [hu] at hr
  obtain ⟨hf, hq⟩ := hr.exact (k := (sint 16 v).natAbs) (sh := 134) (by omega)
    (by rw [Int.natAbs_mul, Int.natAbs_mul, Int.natAbs_pow]; ring) (by omega)
  have hval : units (i16map v) = sint 16 v * 2 ^ 134 := by
    push_cast at hq
    rw [i16map]
    omega
  refine ⟨hf, hval, fun h => ?_⟩
  have h0 : sint 16 v = 0 := by
    rw [h, show units 0x80000000 = 0 by decide] at hval
    omega
  rw [i16map, h0] at h
  exact absurd h (by decide)

end Sys2Proof.Machine
end

section
/-! # Order, shaping, rounding to integers, and the special values -/

namespace Sys2Proof.Machine

variable {a b v x : F32}

/-! ## Order (R138) -/

/-- The order of patterns by sign and magnitude is the order of the values. -/
theorem fKey_lt_iff_units_lt : fKey b < fKey a ↔ units b < units a := by
  have hlt := magUnits_strictMono.lt_iff_lt (a := fMag a) (b := fMag b)
  have hgt := magUnits_strictMono.lt_iff_lt (a := fMag b) (b := fMag a)
  have ha := magUnits_strictMono.lt_iff_lt (a := 0) (b := fMag a)
  have hb := magUnits_strictMono.lt_iff_lt (a := 0) (b := fMag b)
  rw [magUnits_zero] at ha hb
  cases hsa : fSign a <;> cases hsb : fSign b <;>
    simp only [fKey, units, hsa, hsb, if_true, Bool.false_eq_true, if_false] <;> omega

theorem fGt_iff_of_not_nan (ha : isNaN a = false) (hb : isNaN b = false) :
    fGt a b = true ↔ fKey b < fKey a := by simp [fGt, ha, hb]

theorem fGt_iff (ha : isFinite a = true) (hb : isFinite b = true) :
    fGt a b = true ↔ units b < units a :=
  (fGt_iff_of_not_nan (isNaN_of_isFinite ha) (isNaN_of_isFinite hb)).trans fKey_lt_iff_units_lt

theorem fGt_of_isNaN (h : isNaN a = true ∨ isNaN b = true) : fGt a b = false := by
  rcases h with h | h <;> simp [fGt, h]

theorem natAbs_fKey (w : F32) : (fKey w).natAbs = fMag w := by
  cases h : fSign w <;> simp [fKey, h]

/-- The place of a finite value lies between those of the infinities. -/
theorem fKey_between (h : isFinite x = true) : -(infMag : Int) < fKey x ∧ fKey x < infMag := by
  have hm := natAbs_fKey x
  have hlt : fMag x < infMag := of_decide_eq_true h
  omega

/-- Settles O25: by the place of each pattern in the order. -/
theorem orderIsOrderOfValues : Obligations.OrderIsOrderOfValues := by
  refine ⟨fun a b ha hb => ⟨fGt_iff ha hb, fGt_iff hb ha⟩, fun a ha => ?_, by decide, by decide,
    by decide, by decide, fun a b h => ⟨fGt_of_isNaN h, fGt_of_isNaN h.symm⟩⟩
  have hn := isNaN_of_isFinite ha
  obtain ⟨hlo, hhi⟩ := fKey_between ha
  have hpos : fKey 0x7F800000 = infMag := by decide
  have hneg : fKey 0xFF800000 = -(infMag : Int) := by decide
  have hnpos : isNaN 0x7F800000 = false := by decide
  have hnneg : isNaN 0xFF800000 = false := by decide
  simp only [fLt, ← Bool.not_eq_true, fGt_iff_of_not_nan, hn, hnpos, hnneg, hpos, hneg]
  omega

/-! ## Shaping (R136, R137) -/

theorem shape_true (v : F32) : shape true v = sqshape v := by rw [shape, if_pos rfl]

theorem shape_false (v : F32) : shape false v = clamp1 v := by rw [shape, if_neg Bool.false_ne_true]

/-- Both shapings keep a NaN bit for bit. -/
theorem shape_of_isNaN (sq : Bool) (h : isNaN v = true) : shape sq v = v := by
  cases sq <;> simp [shape_true, shape_false, clamp1, sqshape, fLt, fGt_of_isNaN, h]

/-- `clamp1` on a finite value (R136). -/
theorem clamp1_of_finite (hv : isFinite v = true) : clamp1 v =
    if (2 ^ 149 : Int) < units v then fOne else if units v < -(2 ^ 149) then fMinusOne else v := by
  simp only [clamp1, fLt, fGt_iff hv (show isFinite fOne = true by decide),
    fGt_iff (show isFinite fMinusOne = true by decide) hv, units_fOne,
    units_fMinusOne]

/-- `sqshape` on a finite value (R137). -/
theorem sqshape_of_finite (hv : isFinite v = true) : sqshape v =
    if 0 < units v then fOne else if units v < 0 then fMinusOne else v := by
  have hzero : units fZero = 0 := by decide
  have hfin : isFinite fZero = true := by decide
  simp only [sqshape, fLt, fGt_iff hv hfin, fGt_iff hfin hv, hzero]

/-- Settles O26: each shaping by the comparisons it makes, in the order it makes them. -/
theorem shapingResults : Obligations.ShapingResults := by
  refine ⟨fun v => ⟨shape_true v, shape_false v⟩,
    fun v h => ⟨shape_false v ▸ shape_of_isNaN false h, shape_true v ▸ shape_of_isNaN true h⟩,
    fun v hv hlo hhi => ?_, fun v hv h => ?_, fun v hv h => ?_, fun v hv h => ?_, fun v hv h => ?_,
    fun v hv h => ?_, by decide, by decide, by decide, by decide⟩
  · rw [clamp1_of_finite hv, if_neg hhi.not_gt, if_neg hlo.not_gt]
  · rw [clamp1_of_finite hv, if_pos h, fOne]
  · rw [clamp1_of_finite hv, if_neg (by omega), if_pos h, fMinusOne]
  · rw [sqshape_of_finite hv, if_pos h, fOne]
  · rw [sqshape_of_finite hv, if_neg h.not_gt, if_pos h, fMinusOne]
  · rw [sqshape_of_finite hv, if_neg h.not_gt, if_neg h.not_lt]

/-! ## Special values (R129, R132) -/

theorem isNaN_fadd (h : isNaN a = true ∨ isNaN b = true) : isNaN (fadd a b) = true := by
  rw [fadd, if_pos (Bool.or_eq_true_iff.2 h)]
  exact isNaN_arithNaN .add a b

theorem isNaN_fsub (h : isNaN a = true ∨ isNaN b = true) : isNaN (fsub a b) = true := by
  rw [fsub, if_pos (Bool.or_eq_true_iff.2 h)]
  exact isNaN_arithNaN .sub a b

theorem isNaN_fmul (h : isNaN a = true ∨ isNaN b = true) : isNaN (fmul a b) = true := by
  rw [fmul, if_pos (Bool.or_eq_true_iff.2 h)]
  exact isNaN_arithNaN .mul a b

theorem isNaN_fdiv (h : isNaN a = true ∨ isNaN b = true) : isNaN (fdiv a b) = true := by
  rw [fdiv, if_pos (Bool.or_eq_true_iff.2 h)]
  exact isNaN_arithNaN .div a b

theorem isNaN_roundHaz (h : isNaN x = true) : isNaN (roundHaz x) = true := by
  rw [roundHaz, if_pos h]
  exact isNaN_arithNaN .round x x

/-- Settles O23: an operand that is a NaN, an infinity or a zero selects the case of the operation. -/
theorem arithmeticSpecialValues : Obligations.ArithmeticSpecialValues := by
  refine ⟨fun a b h => ⟨isNaN_fadd h, isNaN_fsub h, isNaN_fmul h, isNaN_fdiv h⟩,
    isNaN_arithNaN .sub _ _, isNaN_arithNaN .mul _ _, isNaN_arithNaN .div _ _,
    fun x hx => ⟨?_, ?_, ?_⟩, fun x hx h0 => ?_⟩
  · have hi : isInf 0x7F800000 = true := by decide
    have hn : isNaN 0x7F800000 = false := by decide
    rw [fadd, hn, isNaN_of_isFinite hx, addNum, hi, isInf_of_isFinite hx]
    rfl
  · have hi : isInf 0xFF800000 = true := by decide
    have hn : isNaN 0xFF800000 = false := by decide
    rw [fadd, hn, isNaN_of_isFinite hx, addNum, hi, isInf_of_isFinite hx]
    rfl
  · obtain ⟨hm, hs⟩ := fsub_of_finite hx hx
    rw [Int.sub_self] at hm hs
    rw [if_pos rfl, Bool.and_not_self] at hs
    exact eq_of_fSign_of_fMag (hs.trans (by decide)) (hm.trans (by decide))
  · have hn : isNaN 0x00000000 = false := by decide
    have hi : isInf 0x00000000 = false := by decide
    have hz : fMag 0x00000000 = 0 := by decide
    have hs : fSign 0x00000000 = false := by decide
    have hinf : fdiv x 0x00000000 = pack (fSign x) infMag := by
      rw [fdiv, isNaN_of_isFinite hx, isInf_of_isFinite hx, hn, hi, hz, hs]
      simp [h0]
    rw [hinf]
    cases fSign x <;> rfl

/-! ## Rounding to integers (R133) -/

/-- The integer nearest to a finite magnitude, halves upwards, is the magnitude of a finite pattern: from
`2^172` units on every magnitude is an integer already, and below that the integer is at most `2^24`. -/
theorem exists_magUnits_nearestInt {p : Nat} (hp : p < infMag) :
    ∃ q < infMag, magUnits q = (magUnits p + 2 ^ 148) / 2 ^ 149 * 2 ^ 149 := by
  obtain ⟨sh, k, rfl, hk, hn⟩ := exists_grid p
  have hm := magUnits_grid hk.le hn
  by_cases hsh : 149 ≤ sh
  · obtain ⟨j, rfl⟩ := Nat.exists_eq_add_of_le hsh
    refine ⟨_, hp, ?_⟩
    have hint : magUnits ((149 + j) * 2 ^ 23 + k) = k * 2 ^ j * 2 ^ 149 := by
      rw [hm, Nat.pow_add]
      ring
    rw [hint]
    omega
  · have hle : magUnits (sh * 2 ^ 23 + k) ≤ 2 ^ 24 * 2 ^ 148 := by
      rw [hm]
      exact Nat.mul_le_mul hk.le (Nat.pow_le_pow_right (by decide) (by omega))
    obtain ⟨q, hq⟩ := exists_magUnits_eq 149
      (k := (magUnits (sh * 2 ^ 23 + k) + 2 ^ 148) / 2 ^ 149) (by omega)
    refine ⟨q, magUnits_strictMono.lt_iff_lt.1 ?_, hq⟩
    rw [hq, magUnits_infMag]
    exact (Nat.div_mul_le_self _ _).trans_lt ((Nat.add_le_add_right hle _).trans_lt (by decide))

/-- `roundHaz` on a finite value is its nearest integer with the value's sign bit (R133). -/
theorem roundHaz_of_finite (hx : isFinite x = true) : isFinite (roundHaz x) = true ∧
    magUnits (fMag (roundHaz x)) = (magUnits (fMag x) + 2 ^ 148) / 2 ^ 149 * 2 ^ 149 ∧
    fSign (roundHaz x) = fSign x := by
  obtain ⟨q, hq, hm⟩ := exists_magUnits_nearestInt (of_decide_eq_true hx)
  have hr := roundMag_exact Nat.one_pos hq.le
  rw [Nat.mul_one, hm] at hr
  have heq : roundHaz x = pack (fSign x) q := by
    simp only [roundHaz, isNaN_of_isFinite hx, isInf_of_isFinite hx, hr]
    rfl
  have hlt : q < 2 ^ 31 := hq.trans (by decide)
  rw [heq, isFinite, fMag_pack _ _ hlt, fSign_pack _ _ hlt]
  exact ⟨decide_eq_true hq, hm, rfl⟩

/-- Settles O27: the nearest integer is a pattern's value, so rounding to a pattern keeps it. -/
theorem roundHalfAwayFromZero : Obligations.RoundHalfAwayFromZero := by
  refine ⟨fun x hx => ?_, fun x hx => ?_, fun x => isNaN_roundHaz⟩
  · obtain ⟨hf, hm, hs⟩ := roundHaz_of_finite hx
    refine ⟨hf, ?_⟩
    rw [natAbs_units, ← hm, units, hs]
    split <;> omega
  · simp [roundHaz, hx, isNaN_of_isInf hx]

end Sys2Proof.Machine
end

section
/-! # The ranges of the encoder (R141) and the 8-bit maps of the decoder (R152, R153) -/

namespace Sys2Proof.Machine

variable {v x : F32} {lo hi : Int}

/-! ## Ranges -/

/-- `x` is finite and its value lies between the integers `lo` and `hi`. -/
structure InRange (lo hi : Int) (x : F32) : Prop where
  finite : isFinite x = true
  lower : lo * 2 ^ 149 ≤ units x
  upper : units x ≤ hi * 2 ^ 149

/-- A bound of at most 24 bits is kept by rounding. -/
theorem magUnits_roundMag_le {num den m : Nat} (hden : 0 < den) (hm : m ≤ 2 ^ 24)
    (h : num ≤ m * 2 ^ 149 * den) :
    roundMag num den < infMag ∧ magUnits (roundMag num den) ≤ m * 2 ^ 149 := by
  obtain ⟨p, hp⟩ := exists_magUnits_eq 149 hm
  have hle : roundMag num den ≤ p := roundMag_le_of_le hden (by rwa [hp])
  have hfin : p < infMag := by
    rw [← magUnits_strictMono.lt_iff_lt, hp, magUnits_infMag]
    exact (Nat.mul_le_mul_right _ hm).trans_lt (by decide)
  exact ⟨hle.trans_lt hfin, hp ▸ magUnits_strictMono.monotone hle⟩

/-- Where the exact result lies between two integers of at most 24 bits, one on each side of zero, so
does the rounded one. -/
theorem Rounds.inRange {n : Int} {den : Nat} (h : Rounds x n den)
    (hb : -2 ^ 24 ≤ lo ∧ lo ≤ 0 ∧ 0 ≤ hi ∧ hi ≤ 2 ^ 24)
    (hl : lo * 2 ^ 149 * den ≤ n) (hu : n ≤ hi * 2 ^ 149 * den) : InRange lo hi x := by
  obtain ⟨hlo, hlo0, hhi0, hhi⟩ := hb
  have hfin : roundMag n.natAbs den < infMag → isFinite x = true := fun hf => by
    rw [isFinite, h.mag]
    exact decide_eq_true hf
  have hunits := h.units_eq
  by_cases hneg : n < 0
  · obtain ⟨m, rfl⟩ := Int.exists_eq_neg_ofNat hlo0
    have hnum : n.natAbs ≤ m * 2 ^ 149 * den := by
      zify
      rw [abs_of_neg hneg]
      linarith
    obtain ⟨hf, hm⟩ := magUnits_roundMag_le h.den_pos (m := m) (by omega) hnum
    rw [if_pos hneg] at hunits
    exact ⟨hfin hf, by omega, by omega⟩
  · obtain ⟨m, rfl⟩ := Int.eq_ofNat_of_zero_le hhi0
    have hnum : n.natAbs ≤ m * 2 ^ 149 * den := by
      zify
      rw [abs_of_nonneg (by omega)]
      exact hu
    obtain ⟨hf, hm⟩ := magUnits_roundMag_le h.den_pos (m := m) (by omega) hnum
    rw [if_neg hneg] at hunits
    exact ⟨hfin hf, by omega, by omega⟩

/-- Rounding to the nearest integer keeps integer bounds (R133). -/
theorem InRange.roundHaz (h : InRange lo hi x) : InRange lo hi (roundHaz x) := by
  obtain ⟨hx, hl, hu⟩ := h
  obtain ⟨hf, hm, hs⟩ := roundHaz_of_finite hx
  cases hsign : fSign x with
  | false =>
    rw [units_of_fSign_false hsign] at hl hu
    have heq := units_of_fSign_false (hs.trans hsign)
    exact ⟨hf, by omega, by omega⟩
  | true =>
    rw [units_of_fSign_true hsign] at hl hu
    have heq := units_of_fSign_true (hs.trans hsign)
    exact ⟨hf, by omega, by omega⟩

/-- A cast of a value between integer bounds is in range (R134). -/
theorem InRange.castOk (h : InRange lo hi x) : castOk lo hi x = true := by
  obtain ⟨hx, hl, hu⟩ := h
  simp only [Machine.castOk, hx, Bool.true_and, Bool.and_eq_true, decide_eq_true_eq]
  rw [truncInt]
  cases hsign : fSign x with
  | false =>
    rw [units_of_fSign_false hsign] at hl hu
    rw [if_neg Bool.false_ne_true]
    omega
  | true =>
    rw [units_of_fSign_true hsign] at hl hu
    rw [if_pos rfl]
    omega

theorem inRange_fOne : InRange (-1) 1 fOne := ⟨by decide, by decide, by decide⟩

theorem inRange_fMinusOne : InRange (-1) 1 fMinusOne := ⟨by decide, by decide, by decide⟩

/-- The two infinities. -/
theorem eq_of_isInf (h : isInf x = true) : x = 0x7F800000 ∨ x = 0xFF800000 := by
  have hm : fMag x = infMag := eq_of_beq h
  cases hs : fSign x with
  | false => exact .inl (eq_of_fSign_of_fMag (hs.trans (by decide)) (hm.trans (by decide)))
  | true => exact .inr (eq_of_fSign_of_fMag (hs.trans (by decide)) (hm.trans (by decide)))

/-- A shaped sample that is no NaN lies in [-1, 1] (R136, R137). -/
theorem inRange_shape (sq : Bool) (h : isNaN v = false) : InRange (-1) 1 (shape sq v) := by
  rcases class_cases v with hn | hinf | hf
  · simp [hn] at h
  · rcases eq_of_isInf hinf with rfl | rfl <;> cases sq
    exacts [inRange_fOne, inRange_fOne, inRange_fMinusOne, inRange_fMinusOne]
  · cases sq with
    | false =>
      rw [shape_false, clamp1_of_finite hf]
      split_ifs
      exacts [inRange_fOne, inRange_fMinusOne, ⟨hf, by omega, by omega⟩]
    | true =>
      rw [shape_true, sqshape_of_finite hf]
      split_ifs
      exacts [inRange_fOne, inRange_fMinusOne, ⟨hf, by omega, by omega⟩]

/-- `(s + 1) / 2` (R203, R204). -/
theorem InRange.fdiv_fadd (h : InRange (-1) 1 x) : InRange 0 1 (fdiv (fadd x fOne) fTwo) := by
  obtain ⟨hx, hl, hu⟩ := h
  have hsum := rounds_fadd hx (b := fOne) (by decide)
  rw [units_fOne] at hsum
  obtain ⟨hf, hl, hu⟩ := hsum.inRange (lo := 0) (hi := 2) (by decide) (by omega) (by omega)
  have hdiv := rounds_fdiv hf (by decide) units_fTwo (by decide)
  exact hdiv.inRange (by decide) (by omega) (by omega)

/-- The u8 value before its cast (R204). -/
theorem InRange.fmul_f255 (h : InRange 0 1 x) : InRange 0 255 (fmul f255 x) := by
  obtain ⟨hx, hl, hu⟩ := h
  have hmul := rounds_fmul (a := f255) (by decide) hx
  rw [units_f255] at hmul
  exact hmul.inRange (by decide) (by omega) (by omega)

/-- The s8 value before rounding (R203). -/
theorem InRange.fsub_f128 (h : InRange 0 255 x) : InRange (-128) 127 (fsub x f128) := by
  obtain ⟨hx, hl, hu⟩ := h
  have hsub := rounds_fsub hx (b := f128) (by decide)
  rw [units_f128] at hsub
  exact hsub.inRange (by decide) (by omega) (by omega)

/-- The i16 value before rounding (R205). -/
theorem InRange.fmul_f32767 (h : InRange (-1) 1 x) : InRange (-32767) 32767 (fmul x f32767) := by
  obtain ⟨hx, hl, hu⟩ := h
  have hmul := rounds_fmul hx (b := f32767) (by decide)
  rw [units_f32767] at hmul
  exact hmul.inRange (by decide) (by omega) (by omega)

/-- Settles O28: the bounds -1 and 1 of a shaped sample are carried through each formula. -/
theorem encoderCastsInRange : Obligations.EncoderCastsInRange := by
  intro v sq hv
  have hs := inRange_shape sq hv
  have hscaled := hs.fdiv_fadd.fmul_f255
  exact ⟨hscaled.fsub_f128.roundHaz.castOk, hscaled.castOk, hs.fmul_f32767.roundHaz.castOk⟩

/-! ## The 8-bit maps -/

/-- Up to `2^24 * 2^sh` units the spacing of the grid is at most `2^sh`, and so is the rounding error. -/
theorem roundError_roundMag_le {num den sh : Nat} (hden : 0 < den) (hsh : sh ≤ 252)
    (h : num ≤ 2 ^ 24 * 2 ^ sh * den) : roundError num den (roundMag num den) ≤ 2 ^ sh * den := by
  obtain ⟨top, htop⟩ := exists_magUnits_eq sh (le_refl (2 ^ 24))
  have hfin : roundMag num den < infMag := by
    refine (roundMag_le_of_le hden (p := top) (by rwa [htop])).trans_lt ?_
    rw [← magUnits_strictMono.lt_iff_lt, htop, magUnits_infMag]
    exact Nat.mul_lt_mul_of_pos_left (Nat.pow_lt_pow_right (by decide) (by omega)) (by decide)
  have hpos : 0 < 2 ^ sh * den := Nat.mul_pos (Nat.two_pow_pos sh) hden
  obtain ⟨p, hp⟩ := exists_magUnits_eq sh
    (Nat.div_le_of_le_mul (by rwa [Nat.mul_comm, ← Nat.mul_assoc]) : num / (2 ^ sh * den) ≤ 2 ^ 24)
  have hfloor : magUnits p * den = 2 ^ sh * den * (num / (2 ^ sh * den)) := by rw [hp]; ring
  have hmod := Nat.div_add_mod num (2 ^ sh * den)
  have hlt := Nat.mod_lt num hpos
  have hnear := (isNearestEven_roundMag hden hfin p).1
  rw [roundError_of_le (p := p) (by omega)] at hnear
  omega

/-- The value of a rounded result is as near to the exact one as the spacing of the grid. -/
theorem Rounds.error_le {n : Int} {den sh : Nat} (h : Rounds x n den) (hsh : sh ≤ 252)
    (hn : n.natAbs ≤ 2 ^ 24 * 2 ^ sh * den) :
    n - 2 ^ sh * den ≤ units x * den ∧ units x * den ≤ n + 2 ^ sh * den := by
  have herr := roundError_roundMag_le h.den_pos hsh hn
  have hunits := h.units_eq
  have hcast : ((2 ^ sh * den : Nat) : Int) = 2 ^ sh * den := by push_cast; rfl
  rw [roundError] at herr
  rw [← hcast, hunits]
  split
  · rw [neg_mul]
    omega
  · omega

/-- `u8map n` is finite, and `(2 n - 255) / 255` with an error of less than `2^-20` (R153). -/
theorem units_u8map_near {n : Nat} (hn : n ≤ 255) :
    isFinite (u8map n) = true ∧ (2 * n - 255) * 2 ^ 149 - 2 ^ 136 ≤ 255 * units (u8map n) ∧
      255 * units (u8map n) ≤ (2 * n - 255) * 2 ^ 149 + 2 ^ 136 := by
  obtain ⟨hi, hu⟩ := i2f_exact (n := n) (by omega)
  have hq := rounds_fdiv hi (by decide) units_f255 (by decide)
  rw [hu] at hq
  have ⟨hq1, hq2⟩ := hq.error_le (sh := 125) (by decide) (by omega)
  obtain ⟨hqf, hql, hqu⟩ := hq.inRange (lo := 0) (hi := 1) (by decide) (by omega) (by omega)
  have hd := rounds_fmul (a := fTwo) (by decide) hqf
  rw [units_fTwo] at hd
  have ⟨hd1, hd2⟩ := hd.error_le (sh := 126) (by decide) (by omega)
  obtain ⟨hdf, hdl, hdu⟩ := hd.inRange (lo := 0) (hi := 2) (by decide) (by omega) (by omega)
  have hm := rounds_fsub hdf (b := fOne) (by decide)
  rw [units_fOne] at hm
  have ⟨hm1, hm2⟩ := hm.error_le (sh := 125) (by decide) (by omega)
  have hmf := (hm.inRange (lo := -1) (hi := 1) (by decide) (by omega) (by omega)).finite
  exact ⟨hmf, by rw [u8map]; omega, by rw [u8map]; omega⟩

/-- Flipping the sign bit of a byte adds 128 to its two's-complement value (R121). -/
theorem sint_add_128 {c : Nat} (h : c < 256) : sint 8 c + 128 = ((c ^^^ 0x80 : Nat) : Int) := by
  have hmod : (c ^^^ 0x80) % 2 ^ 7 = c % 2 ^ 7 := by
    rw [Nat.xor_mod_two_pow, Nat.mod_self, Nat.xor_zero]
  have hdiv : (c ^^^ 0x80) / 2 ^ 7 = c / 2 ^ 7 ^^^ 1 := Nat.xor_div_two_pow
  unfold sint
  obtain hc | hc : c / 2 ^ 7 = 0 ∨ c / 2 ^ 7 = 1 := by omega
  · rw [hc, Nat.zero_xor] at hdiv
    rw [if_pos (by omega)]
    omega
  · rw [hc, Nat.xor_self] at hdiv
    rw [if_neg (by omega)]
    omega

/-- `s8map` of a code is `u8map` of the code with its top bit flipped (R152). -/
theorem s8map_eq_u8map {c : Nat} (h : c < 256) : s8map c = u8map (c ^^^ 0x80) := by
  rw [s8map, u8map, sint_add_128 h]

/-- No u8 code decodes to a zero (R121): `2 n - 255` is odd. -/
theorem units_u8map_ne_zero {n : Nat} (hn : n ≤ 255) : units (u8map n) ≠ 0 := by
  obtain ⟨-, hl, hu⟩ := units_u8map_near hn
  omega

/-- The u8 map increases with the code (R153): a step is greater than twice the error. -/
theorem fLt_u8map_succ {n : Nat} (hn : n < 255) : fLt (u8map n) (u8map (n + 1)) = true := by
  obtain ⟨hf, -, hu⟩ := units_u8map_near hn.le
  obtain ⟨hf', hl, -⟩ := units_u8map_near (Nat.succ_le_of_lt hn)
  refine (fGt_iff hf' hf).2 ?_
  push_cast at hl
  omega

/-- Settles O19: the eight codes are computed; the rest is by the distance from the exact map. -/
theorem eightBitDecodeMaps : Obligations.EightBitDecodeMaps := by
  refine ⟨by decide, by decide, by decide, by decide, by decide, by decide, by decide, by decide,
    fun c hc => ?_, fun c => s8map_eq_u8map, fun n => fLt_u8map_succ⟩
  rw [s8map_eq_u8map hc]
  exact units_u8map_ne_zero (Nat.le_of_lt_succ (Nat.xor_lt_two_pow (n := 8) hc (by decide)))

end Sys2Proof.Machine
end

section
/-! # The results of `DEC` and `ENC`, and NaN samples (R151, R201, R211) -/

namespace Sys2Proof.Machine

variable {v x : F32}

/-- Settles O15: the number of samples is the number of whole groups of the chunk. -/
theorem decCompletes : Obligations.DecCompletes := by
  intro t s
  have hlen : (decodeSamples t (chunk s)).length = s.bufLen / wIn t := by
    rw [decodeSamples_length, chunk, reads_length]
  rw [exec_decOf, ← hlen]
  rfl

/-- Settles O38: each of the `M` samples becomes `W_OUT(t)` bytes. -/
theorem encCompletes : Obligations.EncCompletes := by
  intro t sq s
  have hlen : (encodeSamples t sq s.draws (rbufIn s)).length = s.m * wOut t := by
    rw [encodeSamples_length, rbufIn, readArray_length]
  rw [exec_encOf, ← hlen]
  rfl

/-! ## NaN samples -/

/-- A cast of a NaN takes its free value (R135). -/
theorem castOk_of_isNaN (lo hi : Int) (h : isNaN x = true) : castOk lo hi x = false :=
  castOk_of_not_finite lo hi x (isFinite_of_isNaN h)

/-- `(v + 1) / 2 * 255` of a NaN is a NaN (R132). -/
theorem isNaN_scaled (h : isNaN v = true) :
    isNaN (fmul f255 (fdiv (fadd v fOne) fTwo)) = true :=
  isNaN_fmul (.inr (isNaN_fdiv (.inl (isNaN_fadd (.inl h)))))

theorem narrowS8_of_isNaN (draw : BitVec 8) (h : isNaN v = true) : narrowS8 draw v = draw := by
  rw [narrowS8, truncCastS8, castOk_of_isNaN _ _ (isNaN_roundHaz (isNaN_fsub (.inl (isNaN_scaled h))))]
  rfl

theorem narrowU8_of_isNaN (draw : BitVec 8) (h : isNaN v = true) : narrowU8 draw v = draw := by
  rw [narrowU8, truncCastU8, castOk_of_isNaN _ _ (isNaN_scaled h)]
  rfl

theorem narrowI16_of_isNaN (draw : BitVec 16) (h : isNaN v = true) : narrowI16 draw v = draw := by
  rw [narrowI16, truncCastS16, castOk_of_isNaN _ _ (isNaN_roundHaz (isNaN_fmul (.inl h)))]
  rfl

/-- A value of one byte is its own little-endian byte (R13). -/
theorem leBytes_one (w : BitVec 8) : leBytes 1 w.toNat = [w] := by
  simp [leBytes]

/-- The low byte stands first (R13). -/
theorem leBytes_two (w : BitVec 16) :
    leBytes 2 w.toNat = [w.extractLsb' 0 8, w.extractLsb' 8 8] := by
  simp [leBytes, BitVec.extractLsb', Nat.shiftRight_eq_div_pow]

theorem leBytes_four (w : BitVec 32) : leBytes 4 w.toNat =
    [w.extractLsb' 0 8, w.extractLsb' 8 8, w.extractLsb' 16 8, w.extractLsb' 24 8] := by
  simp [leBytes, BitVec.extractLsb', Nat.shiftRight_eq_div_pow, Nat.div_div_eq_div_mul]

/-- Settles O42: a NaN passes every operation up to the cast, and samples are encoded one by one. -/
theorem nanSamples : Obligations.NanSamples := by
  refine ⟨fun v sq k h => ?_, fun t sq k x y v => ?_⟩
  · rw [shape_of_isNaN sq h]
    refine ⟨rfl, ?_, ?_, ?_, leBytes_four v⟩
    · rw [narrow, narrowS8_of_isNaN _ h, leBytes_one]
    · rw [narrow, narrowU8_of_isNaN _ h, leBytes_one]
    · rw [narrow, narrowI16_of_isNaN _ h, leBytes_two]
  · rw [encodeSamples_append, encodeSamples, List.append_assoc]

end Sys2Proof.Machine
end

section
/-! # The laws of `Decode`, the range of its components, and the f32 codec (R158, R155, R206) -/

namespace Sys2Proof.Machine

variable {x : F32}

/-! ## Whole groups and remainders (R150, R156) -/

/-- Where `b` is `n` whole groups, the groups after them are those of what follows. -/
theorem groups_append {w n : Nat} (m : Nat) {b : List Byte} (c : List Byte) (h : b.length = n * w) :
    groups w (n + m) (b ++ c) = groups w n b ++ groups w m c := by
  induction n generalizing b with
  | zero =>
    obtain rfl := List.length_eq_zero_iff.1 (h.trans (Nat.zero_mul w))
    rw [Nat.zero_add]
    rfl
  | succ n ih =>
    rw [Nat.succ_mul] at h
    have hw : w ≤ b.length := by omega
    have hrest : (b.drop w).length = n * w := by rw [List.length_drop]; omega
    rw [Nat.succ_add, groups, groups, List.take_append_of_le_length hw,
      List.drop_append_of_le_length hw, ih hrest, List.cons_append]

/-- The prefix law of R158. -/
theorem decodeSamples_append {t : SampleType} {b : List Byte} (c : List Byte)
    (h : b.length % wIn t = 0) :
    decodeSamples t (b ++ c) = decodeSamples t b ++ decodeSamples t c := by
  have hdvd : wIn t ∣ b.length := Nat.dvd_of_mod_eq_zero h
  rw [decodeSamples, List.length_append, Nat.add_div_of_dvd_right hdvd,
    groups_append _ c (Nat.div_mul_cancel hdvd).symm, List.map_append]
  rfl

/-- Less than a group is no sample (R70). -/
theorem decodeSamples_eq_nil {t : SampleType} {r : List Byte} (h : r.length < wIn t) :
    decodeSamples t r = [] := by
  rw [decodeSamples, Nat.div_eq_of_lt h]
  rfl

/-- Settles O17: the truncation law is the prefix law with a remainder that decodes to nothing. -/
theorem decodeLaws : Obligations.DecodeLaws := by
  refine ⟨decodeSamples_length, fun t b r hb hr => ?_, fun t b c => decodeSamples_append c⟩
  rw [decodeSamples_append r hb, decodeSamples_eq_nil hr, List.append_nil]

/-! ## The range of a component (R158) -/

theorem leNat_lt (l : List Byte) : leNat l < 256 ^ l.length := by
  induction l with
  | nil => exact Nat.one_pos
  | cons b l ih =>
    have hb := b.isLt
    rw [leNat, List.length_cons, Nat.pow_succ]
    omega

/-- `n` bytes denote a number below `256^n` (R13). -/
theorem memRead_lt (g : List Byte) (a n : Nat) : memRead g a n < 256 ^ n :=
  (leNat_lt _).trans_le (Nat.pow_le_pow_right (by decide) (List.length_take_le _ _))

/-- The end codes decode to -1 and 1 themselves; between them the rounding error is less than the distance
to the bounds (R153). -/
theorem inRange_u8map {n : Nat} (hn : n < 256) : InRange (-1) 1 (u8map n) := by
  obtain rfl | rfl | hmid : n = 0 ∨ n = 255 ∨ (0 < n ∧ n < 255) := by omega
  · rw [show u8map 0 = fMinusOne by decide]
    exact inRange_fMinusOne
  · rw [show u8map 255 = fOne by decide]
    exact inRange_fOne
  · obtain ⟨hf, hl, hu⟩ := units_u8map_near hmid.2.le
    exact ⟨hf, by omega, by omega⟩

/-- An s8 code is a u8 code with its top bit flipped (R152). -/
theorem inRange_s8map {n : Nat} (hn : n < 256) : InRange (-1) 1 (s8map n) := by
  rw [s8map_eq_u8map hn]
  exact inRange_u8map (Nat.xor_lt_two_pow (n := 8) hn (by decide))

/-- `v * 2^-15` with `-2^15 ≤ v < 2^15` (R154). -/
theorem inRange_i16map {v : Nat} (hv : v < 65536) : InRange (-1) 1 (i16map v) := by
  obtain ⟨hf, hu, -⟩ := i16DecodeExact v hv
  have hs : -2 ^ 15 ≤ sint 16 v ∧ sint 16 v ≤ 2 ^ 15 := by
    unfold sint
    split <;> omega
  exact ⟨hf, by omega, by omega⟩

/-- A component of a type other than f32, made of as many bytes as the type has for it. -/
theorem inRange_componentMap {t : SampleType} (ht : t ≠ .f32) {v : Nat} (hv : v < 256 ^ (wIn t / 2)) :
    InRange (-1) 1 (componentMap t v) := by
  cases t with
  | s8 => exact inRange_s8map hv
  | u8 => exact inRange_u8map hv
  | i16 => exact inRange_i16map hv
  | f32 => exact absurd rfl ht

/-- A value between -1 and 1 is so by the comparisons too (R138). -/
theorem InRange.not_beyond_one (h : InRange (-1) 1 x) :
    isNaN x = false ∧ fLt x fMinusOne = false ∧ fGt x fOne = false := by
  obtain ⟨hx, hl, hu⟩ := h
  have hlt := fGt_iff (a := fMinusOne) (by decide) hx
  have hgt := fGt_iff (b := fOne) hx (by decide)
  rw [units_fMinusOne] at hlt
  rw [units_fOne] at hgt
  exact ⟨isNaN_of_isFinite hx, Bool.eq_false_iff.2 (mt hlt.1 (by omega)),
    Bool.eq_false_iff.2 (mt hgt.1 (by omega))⟩

/-- Settles O18: each component is its type's map of a number of as many bytes as it has. -/
theorem decodedRange : Obligations.DecodedRange := by
  intro t b x ht hx v hv
  obtain ⟨g, -, rfl⟩ := List.mem_map.1 hx
  have hcomponent (a : Nat) := (inRange_componentMap ht (memRead_lt g a (wIn t / 2))).not_beyond_one
  obtain rfl | rfl := List.mem_pair.1 hv
  · exact hcomponent 0
  · exact hcomponent (wIn t / 2)

/-! ## The f32 codec (R155, R206) -/

/-- The little-endian bytes of a number denote it again (R13). -/
theorem leNat_leBytes {n v : Nat} (h : v < 256 ^ n) : leNat (leBytes n v) = v := by
  induction n generalizing v with
  | zero => exact (Nat.lt_one_iff.1 h).symm
  | succ n ih =>
    rw [Nat.pow_succ] at h
    rw [leBytes, leNat, ih (Nat.div_lt_of_lt_mul (by omega)), BitVec.toNat_ofNat]
    exact Nat.mod_add_div v 256

theorem ofNat_leNat_leBytes (w : F32) : BitVec.ofNat 32 (leNat (leBytes 4 w.toNat)) = w := by
  rw [leNat_leBytes w.isLt, BitVec.ofNat_toNat, BitVec.setWidth_eq]

/-- A group of two patterns is one sample with these components (R155). -/
theorem decodeSamples_f32 (a b : F32) :
    decodeSamples .f32 (leBytes 4 a.toNat ++ leBytes 4 b.toNat) = [⟨a, b⟩] := by
  have hi : memRead (leBytes 4 a.toNat ++ leBytes 4 b.toNat) 0 4 = leNat (leBytes 4 a.toNat) := rfl
  have hq : memRead (leBytes 4 a.toNat ++ leBytes 4 b.toNat) 4 4 = leNat (leBytes 4 b.toNat) := rfl
  have hcvt : cvt .f32 (leBytes 4 a.toNat ++ leBytes 4 b.toNat) = ⟨a, b⟩ := by
    rw [cvt, wIn, hi, hq, componentMap, componentMap, ofNat_leNat_leBytes, ofNat_leNat_leBytes]
  have hlen : (leBytes 4 a.toNat ++ leBytes 4 b.toNat).length / wIn .f32 = 1 := by
    rw [List.length_append, leBytes_length, leBytes_length]
    rfl
  rw [decodeSamples, hlen]
  exact congrArg (fun x => [x]) hcvt

/-- Clamping keeps a NaN, and a value in [-1, 1] (R136). -/
theorem shape_false_eq_self (h : isNaN x = true ∨ (fLt x fMinusOne = false ∧ fGt x fOne = false)) :
    shape false x = x := by
  obtain hnan | ⟨hlo, hhi⟩ := h
  · exact shape_of_isNaN false hnan
  · simp [shape_false, clamp1, hlo, hhi]

/-- Settles O21: the bytes of a pattern denote the pattern, and clamping does not change it. -/
theorem f32CodecCopies : Obligations.F32CodecCopies := by
  refine ⟨decodeSamples_f32, fun w k h => ?_⟩
  rw [shape_false_eq_self h]
  refine ⟨_, _, _, _, leBytes_four w, ?_⟩
  rw [← ofNat_leNat_four, ← leBytes_four, ofNat_leNat_leBytes]

end Sys2Proof.Machine
end

section
/-! # The Parameter Deriver (R170 to R176) -/

namespace Sys2Proof.Machine

variable {s : State} {a b x : F32} {w : Word}

/-! ## The result of `DERIVE` (R170 to R174, R176) -/

/-- The check of `DERIVE`: the mandatory rates present, they are not 0, and no resample rate is 0. -/
theorem ratesOk_iff : ratesOk s = true ↔
    (s.mode.getLsbD 10 = true ∧ s.mode.getLsbD 12 = true ∧ s.mode.getLsbD 13 = true) ∧
    (s.samplerate ≠ 0 ∧ s.bandwidth ≠ 0 ∧ s.deviation ≠ 0) ∧
    (s.mode.getLsbD 11 = true → s.resamplerate ≠ 0) := by
  simp only [ratesOk, resamplerateOk, modeSamplerateV, modeBandwidthV, modeDeviationV,
    modeResamplerateV, Bool.and_eq_true, Bool.or_eq_true, Bool.not_eq_true', bne_iff_ne,
    ← Bool.not_eq_true, imp_iff_not_or, and_assoc]

/-- The deviation is divided by the rate that is in effect (R174). -/
theorem sensOf_eq_ite (resampling : Bool) (dev rr sr : Word) : sensOf resampling dev rr sr =
    fdiv (rateF dev) (if resampling then rateF rr else rateF sr) := by
  rw [sensOf, apply_ite rateF]

theorem exec_derive_of_ratesOk (h : ratesOk s = true) :
    exec .derive s = .next (advance { s with pr := derivedPr s, pvalid := true }) :=
  if_pos h

theorem exec_derive_of_not_ratesOk (h : ¬ ratesOk s = true) :
    exec .derive s = .next (raiseFault fConfig s) :=
  if_neg h

/-- Settles O29: the check passes exactly under the statement's conditions; `SENS` divides by the one
rate or the other. -/
theorem deriveResult : Obligations.DeriveResult := by
  intro s
  dsimp only
  rw [← ratesOk_iff]
  refine ⟨fun h => ?_, exec_derive_of_not_ratesOk⟩
  rw [exec_derive_of_ratesOk h, derivedPr, sensOf_eq_ite]
  rfl

/-! ## Bounds of rounded results -/

/-- A magnitude of at least `p` rounds to at least `p`. -/
theorem le_roundMag_of_le {num den p : Nat} (hden : 0 < den) (hp : p ≤ infMag)
    (h : magUnits p * den ≤ num) : p ≤ roundMag num den := by
  obtain ⟨g, hg, hr⟩ := exists_isNearestEven num hden
  refine hr ▸ Nat.le_min.2 ⟨Nat.le_of_not_lt fun hgp => ?_, hp⟩
  have hlt := magUnits_mul_lt hden hgp
  have hnear := (hg p).1
  rw [roundError_of_le h, roundError_of_le (hlt.le.trans h)] at hnear
  omega

/-- `x` has no sign bit, and its pattern lies between `lo` and `hi`. -/
structure PositiveBetween (lo hi : Nat) (x : F32) : Prop where
  sign : fSign x = false
  lower : lo ≤ fMag x
  upper : fMag x ≤ hi

/-- Where the exact result lies between the magnitudes of two patterns, the rounded one lies between the
patterns (R129). -/
theorem Rounds.positiveBetween {n : Int} {den lo hi : Nat} (h : Rounds x n den) (hn : 0 < n)
    (hlo : lo ≤ infMag) (hl : (magUnits lo : Int) * den ≤ n) (hu : n ≤ (magUnits hi : Int) * den) :
    PositiveBetween lo hi x where
  sign := (h.sign hn.ne').trans (decide_eq_false hn.not_gt)
  lower := h.mag ▸ le_roundMag_of_le h.den_pos hlo (by zify; rwa [abs_of_pos hn])
  upper := h.mag ▸ roundMag_le_of_le h.den_pos (by zify; rwa [abs_of_pos hn])

/-- The value lies between the magnitudes of the bounds. -/
theorem PositiveBetween.units_bounds {lo hi : Nat} (h : PositiveBetween lo hi x) :
    (magUnits lo : Int) ≤ units x ∧ units x ≤ magUnits hi := by
  rw [units_of_fSign_false h.sign]
  exact ⟨Int.ofNat_le.2 (magUnits_strictMono.monotone h.lower),
    Int.ofNat_le.2 (magUnits_strictMono.monotone h.upper)⟩

theorem PositiveBetween.isFinite {lo hi : Nat} (h : PositiveBetween lo hi x) (hhi : hi < infMag) :
    isFinite x = true :=
  decide_eq_true (h.upper.trans_lt hhi)

/-! ## Rates and their quotients (R175)

The bounds as patterns: 1.0 is `0x3F800000`, `2^32` is `0x4F800000`, and `2^-32` is `0x2F800000`; their
doubles are one binade, `0x00800000`, above. -/

theorem magUnits_one : magUnits 0x3F800000 = 2 ^ 149 := by decide

theorem magUnits_two_pow_32 : magUnits 0x4F800000 = 2 ^ 181 := by decide

theorem magUnits_two_pow_neg_32 : magUnits 0x2F800000 = 2 ^ 117 := by decide

theorem magUnits_two_pow_33 : magUnits 0x50000000 = 2 ^ 182 := by decide

theorem magUnits_two_pow_neg_31 : magUnits 0x30000000 = 2 ^ 118 := by decide

/-- `x` lies in `[1.0, 2^32]`, as a rate that is not 0 does. -/
def RateRange (x : F32) : Prop := PositiveBetween 0x3F800000 0x4F800000 x

theorem RateRange.isFinite (h : RateRange x) : isFinite x = true :=
  PositiveBetween.isFinite h (by decide)

theorem RateRange.units_bounds (h : RateRange x) : 2 ^ 149 ≤ units x ∧ units x ≤ 2 ^ 181 := by
  have hb := PositiveBetween.units_bounds h
  rwa [magUnits_one, magUnits_two_pow_32] at hb

/-- The rates that are not 0 are 1 to `2^32 - 1`. -/
theorem rateRange_rateF (hw : w ≠ 0) : RateRange (rateF w) := by
  have hpos : w.toNat ≠ 0 := fun h => hw (BitVec.eq_of_toNat_eq h)
  have hlt := w.isLt
  exact (rounds_i2f w.toNat).positiveBetween (by omega) (by decide) (by rw [magUnits_one]; omega)
    (by rw [magUnits_two_pow_32]; omega)

/-- A quotient of rates lies in `[2^-32, 2^32]`. -/
theorem RateRange.fdiv (ha : RateRange a) (hb : RateRange b) :
    PositiveBetween 0x2F800000 0x4F800000 (fdiv a b) := by
  obtain ⟨hla, hua⟩ := ha.units_bounds
  obtain ⟨hlb, hub⟩ := hb.units_bounds
  obtain ⟨den, hden⟩ := Int.eq_ofNat_of_zero_le (a := units b) (by omega)
  have hr := rounds_fdiv ha.isFinite hb.isFinite hden (by omega)
  exact hr.positiveBetween (by omega) (by decide) (by rw [magUnits_two_pow_neg_32]; omega)
    (by rw [magUnits_two_pow_32]; omega)

/-- Doubling moves the bounds up one binade. -/
theorem PositiveBetween.double (hx : PositiveBetween 0x2F800000 0x4F800000 x) :
    PositiveBetween 0x30000000 0x50000000 (fmul fTwo x) := by
  obtain ⟨hl, hu⟩ := hx.units_bounds
  rw [magUnits_two_pow_neg_32] at hl
  rw [magUnits_two_pow_32] at hu
  have hr := rounds_fmul (a := fTwo) (by decide) (hx.isFinite (by decide))
  rw [units_fTwo] at hr
  exact hr.positiveBetween (by omega) (by decide) (by rw [magUnits_two_pow_neg_31]; omega)
    (by rw [magUnits_two_pow_33]; omega)

/-- A finite value that is no zero, divided by itself, is 1.0: `2^149` units. -/
theorem fdiv_self (hx : isFinite x = true) (h0 : units x ≠ 0) : fdiv x x = fOne := by
  obtain ⟨hm, hs⟩ := fdiv_of_finite hx hx h0
  have hone : fMag fOne = 0x3F800000 := by decide
  refine eq_of_fSign_of_fMag (hs.trans (bne_self_eq_false _)) ?_
  rw [hm, hone, Nat.mul_comm, ← magUnits_one]
  exact roundMag_exact (Int.natAbs_pos.2 h0) (by decide)

/-- A rate that is not 0, over itself (R173). -/
theorem fdiv_rateF_self (hw : w ≠ 0) : fdiv (rateF w) (rateF w) = fOne := by
  have hrate := rateRange_rateF hw
  have hbounds := hrate.units_bounds
  exact fdiv_self hrate.isFinite (by omega)

/-- Settles O30: the bounds are carried through the conversion, the quotient and the doubling. -/
theorem derivedParameterRanges : Obligations.DerivedParameterRanges := by
  refine ⟨fun a b ha hb => ?_, fdiv_rateF_self (by decide)⟩
  have hquot := (rateRange_rateF ha).fdiv (rateRange_rateF hb)
  have hgain := hquot.double
  exact ⟨hquot.sign, hquot.lower, hquot.upper, hgain.sign, hgain.lower, hgain.upper⟩

/-- Without a resample rate the ratio is 1.0 (R173). -/
theorem ratioOf_false (rr sr : Word) : ratioOf false rr sr = fOne := if_neg Bool.false_ne_true

/-- Equal rates have the ratio 1.0 (R173). -/
theorem ratioOf_self (hw : w ≠ 0) : ratioOf true w w = fOne := by
  rw [ratioOf, if_pos rfl, fdiv_rateF_self hw]

/-- Settles O31: the ratio of equal rates is 1.0, and the rate in effect is the same. -/
theorem equalRatesAreNoResampling : Obligations.EqualRatesAreNoResampling := by
  intro sr dev hsr
  refine ⟨(ratioOf_self hsr).trans (ratioOf_false 0 sr).symm, ratioOf_self hsr, ?_⟩
  rw [sensOf_eq_ite, sensOf_eq_ite, ite_self, if_neg Bool.false_ne_true]

end Sys2Proof.Machine
end

section
/-! # The Transform Chain where it answers (R187 to R190, R192) -/

namespace Sys2Proof.Machine

variable {s : State} {p : PrFile} {c : ChainSt}

/-! ## `INIT`: the four creation calls -/

/-- `PR` holds values, so that none is drawn for the read of the file. -/
theorem exec_init_of_ready (hready : s.tcReady = true) (hv : s.pvalid = true) :
    exec .init s = .next (createChain s.pr s) := by
  have hvalues : prValues s = s.pr := if_pos hv
  have hdraws : prDraws s = s.draws := if_pos hv
  rw [exec, execInit, if_pos hready, hvalues, hdraws]

theorem createChain_of_createFilter_none
    (h0 : tcCreateFilter s p.taps.toNat p.cutoff p.atten p.center = none) :
    createChain p s = raiseFault fXform { s with trace := s.trace ++ [.createFilter] } := by
  simp only [createChain, h0]
  rfl

section FilterCreated

variable {f0 : FiltSt} (h0 : tcCreateFilter s p.taps.toNat p.cutoff p.atten p.center = some f0)
include h0

theorem createChain_of_filterSetGain_none (h1 : tcFilterSetGain s f0 p.gain = none) :
    createChain p s = raiseFault fXform { s with
      trace := s.trace ++ [.createFilter, .filterSetGain] } := by
  simp [createChain, h0, h1, emit]

variable {f1 : FiltSt} (h1 : tcFilterSetGain s f0 p.gain = some f1)
include h1

theorem createChain_of_createResampler_none (h2 : tcCreateResampler s p.ratio p.atten = none) :
    createChain p s = raiseFault fXform { s with
      trace := s.trace ++ [.createFilter, .filterSetGain, .createResampler] } := by
  simp [createChain, h0, h1, h2, emit]

variable {r0 : RsSt} (h2 : tcCreateResampler s p.ratio p.atten = some r0)
include h2

theorem createChain_of_createFmDemodulator_none (h3 : tcCreateFmDemodulator s p.sens = none) :
    createChain p s = raiseFault fXform { s with trace := s.trace ++ setupEvents } := by
  simp [createChain, h0, h1, h2, h3, emit, setupEvents]

theorem createChain_of_answers {d0 : DmSt} (h3 : tcCreateFmDemodulator s p.sens = some d0) :
    createChain p s = advance { s with
      trace := s.trace ++ setupEvents, tcs := some ⟨f1, r0, d0⟩ } := by
  simp [createChain, h0, h1, h2, h3, emit, setupEvents]

end FilterCreated

/-- Settles O32: by the first of the four calls that fails, or none. -/
theorem initCreatesChain : Obligations.InitCreatesChain := by
  intro s hready hv
  rw [exec_init_of_ready hready hv]
  refine ⟨fun f0 f1 r0 d0 h0 h1 h2 h3 => ?_, fun h0 => ?_, fun f0 h0 h1 => ?_,
    fun f0 f1 h0 h1 h2 => ?_, fun f0 f1 r0 h0 h1 h2 h3 => ?_⟩
  · rw [createChain_of_answers h0 h1 h2 h3]; rfl
  · rw [createChain_of_createFilter_none h0]; rfl
  · rw [createChain_of_filterSetGain_none h0 h1]; rfl
  · rw [createChain_of_createResampler_none h0 h1 h2]; rfl
  · rw [createChain_of_createFmDemodulator_none h0 h1 h2 h3]; rfl

/-! ## The stages of an iteration -/

theorem filterStage_of_failure (hy : tcFilterApply s c.filt (cbufIn s) = none) :
    filterStage c s = raiseFault fXform { s with trace := s.trace ++ [.filterApply] } := by
  simp only [filterStage, hy]
  rfl

/-- R191 for the samples that `FILTER` reads. -/
theorem tcFilterApply_cbufIn_length {f f' : FiltSt} {y : List ComplexSample}
    (hy : tcFilterApply s f (cbufIn s) = some (f', y)) : y.length = s.nc := by
  rw [tcFilterApply_length hy, cbufIn, readArray_length]

/-- Settles O33: by the answer of the call. -/
theorem filterResult : Obligations.FilterResult := by
  intro s c hc hready
  rw [exec_filter_of_ready hc hready]
  refine ⟨fun f' y hy => ⟨tcFilterApply_cbufIn_length hy, ?_⟩, fun hy => ?_⟩
  · rw [filterStage_of_answer hy]; rfl
  · rw [filterStage_of_failure hy]; rfl

theorem exec_resample_of_ready (hc : s.tcs = some c) (hready : s.tcReady = true) :
    exec .resample s = .next (resampleStage c s) := by
  simp [exec, execResample, hc, hready]

theorem resampleStage_of_failure (hz : tcResamplerProcess s c.rs (cbufIn s) = none) :
    resampleStage c s = raiseFault fXform { s with trace := s.trace ++ [.resamplerProcess] } := by
  simp only [resampleStage, hz]
  rfl

section ResamplerAnswers

variable {r' : RsSt} {z : List ComplexSample}
  (hz : tcResamplerProcess s c.rs (cbufIn s) = some (r', z))
include hz

theorem resampleStage_of_fits (hfit : fitsCap s.mCap z.length = true) :
    resampleStage c s = advance { s with
      trace := s.trace ++ [.resamplerProcess], tcs := some { c with rs := r' }, m := z.length
      rcbuf := writeArray s.rcbuf z } := by
  simp only [resampleStage, hz, hfit, if_true]
  rfl

/-- More than `M_CAP` samples are taken as a failure (R189). -/
theorem resampleStage_of_not_fits (hfit : ¬ fitsCap s.mCap z.length = true) :
    resampleStage c s = raiseFault fXform { s with trace := s.trace ++ [.resamplerProcess] } := by
  simp only [resampleStage, hz, if_neg hfit]
  rfl

end ResamplerAnswers

/-- Settles O34: by the answer of the call, and by whether it fits `M_CAP`. -/
theorem resampleResult : Obligations.ResampleResult := by
  intro s c hc hready
  rw [exec_resample_of_ready hc hready]
  refine ⟨fun r' z hz hle => ?_, fun r' z cap hz hcap hlt => ?_, fun hz => ?_⟩
  · rw [resampleStage_of_fits hz ((fitsCap_iff _ _).2 hle)]; rfl
  · have hfit : ¬ fitsCap s.mCap z.length = true := fun hfits =>
      absurd ((fitsCap_iff _ _).1 hfits cap hcap) (Nat.not_le.2 hlt)
    rw [resampleStage_of_not_fits hz hfit]; rfl
  · rw [resampleStage_of_failure hz]; rfl

theorem demodStage_of_failure (hx : tcDemodProcess s c.dm (rcbufIn s) = none) :
    demodStage c s = raiseFault fXform { s with trace := s.trace ++ [.demodProcess] } := by
  simp only [demodStage, hx]
  rfl

/-- R191 for the samples that `DEMOD` reads. -/
theorem tcDemodProcess_rcbufIn_length {d d' : DmSt} {x : List F32}
    (hx : tcDemodProcess s d (rcbufIn s) = some (d', x)) : x.length = s.m := by
  rw [tcDemodProcess_length hx, rcbufIn, readArray_length]

/-- Settles O35: by the answer of the call. -/
theorem demodResult : Obligations.DemodResult := by
  intro s c hc hready
  rw [exec_demod_of_ready hc hready]
  refine ⟨fun d' x hx => ⟨tcDemodProcess_rcbufIn_length hx, ?_⟩, fun hx => ?_⟩
  · rw [demodStage_of_answer hx]; rfl
  · rw [demodStage_of_failure hx]; rfl

end Sys2Proof.Machine
end

section
/-! # The bytes that `ENC` writes, and the codes of saturated and square-wave samples (R201, R207 to R212) -/

namespace Sys2Proof.Machine

variable {v w : F32}

/-! ## The place of each sample (R201) -/

/-- The code of sample `i` begins at byte `i * W_OUT(t)` of the encoding. -/
theorem encodeSamples_getElem? {t : SampleType} {x : List F32} {i j : Nat} (sq : Bool) (k : Nat)
    (hx : x[i]? = some v) (hj : j < wOut t) :
    (encodeSamples t sq k x)[i * wOut t + j]? = (narrow t (k + i) (shape sq v))[j]? := by
  induction x generalizing i k with
  | nil => simp at hx
  | cons u x ih =>
    rw [encodeSamples]
    cases i with
    | zero =>
      obtain rfl : u = v := by simpa using hx
      rw [Nat.zero_mul, Nat.zero_add, List.getElem?_append_left (by rwa [narrow_length])]
      rfl
    | succ i =>
      have hpast : (i + 1) * wOut t + j - wOut t = i * wOut t + j := by rw [Nat.succ_mul]; omega
      rw [List.getElem?_append_right (by rw [narrow_length, Nat.succ_mul]; omega), narrow_length,
        hpast, ih (k + 1) (by simpa using hx), Nat.add_right_comm, Nat.add_assoc]

/-- Settles O39: `OBUF` holds the encoding from 0 on, and there each sample has its place. -/
theorem encBytesPlaced : Obligations.EncBytesPlaced := by
  refine fun t sq s => ⟨_, exec_encOf t sq s, fun k x hx j hj => ?_⟩
  rw [← encodeSamples_getElem? sq s.draws hx hj]
  have hlt : k * wOut t + j < (encodeSamples t sq s.draws (rbufIn s)).length := by
    have hk : (k + 1) * wOut t ≤ (rbufIn s).length * wOut t :=
      Nat.mul_le_mul_right _ (List.getElem?_eq_some_iff.1 hx).1
    rw [encodeSamples_length]
    rw [Nat.succ_mul] at hk
    omega
  have hread := read_write_inside .obuf s.obuf 0 _ _ hlt
  rw [Nat.zero_add] at hread
  rw [List.getElem?_eq_getElem hlt, ← hread]
  rfl

/-! ## The codes of 1.0, -1.0 and the zeros -/

/-- One byte of the s8 code (R203). -/
theorem narrow_s8 (k : Nat) (x : F32) : narrow .s8 k x = [narrowS8 (Config.draw8 k) x] := leBytes_one _

/-- One byte of the u8 code (R204). -/
theorem narrow_u8 (k : Nat) (x : F32) : narrow .u8 k x = [narrowU8 (Config.draw8 k) x] := leBytes_one _

/-- The two bytes of the i16 code, the low one first (R205). -/
theorem narrow_i16 (k : Nat) (x : F32) : narrow .i16 k x =
    [(narrowI16 (Config.draw16 k) x).extractLsb' 0 8, (narrowI16 (Config.draw16 k) x).extractLsb' 8 8] :=
  leBytes_two _

/-- The codes of 1.0 (R203 to R206). -/
theorem narrow_fOne (k : Nat) : narrow .s8 k fOne = [0x7F] ∧ narrow .u8 k fOne = [0xFF] ∧
    narrow .i16 k fOne = [0xFF, 0x7F] ∧ narrow .f32 k fOne = [0x00, 0x00, 0x80, 0x3F] := by
  have hcode : narrowI16 (Config.draw16 k) fOne = 0x7FFF := rfl
  exact ⟨rfl, rfl, by rw [narrow_i16, hcode]; rfl, rfl⟩

/-- The codes of -1.0 (R203 to R206). -/
theorem narrow_fMinusOne (k : Nat) :
    narrow .s8 k fMinusOne = [0x80] ∧ narrow .u8 k fMinusOne = [0x00] ∧
    narrow .i16 k fMinusOne = [0x01, 0x80] ∧ narrow .f32 k fMinusOne = [0x00, 0x00, 0x80, 0xBF] := by
  have hcode : narrowI16 (Config.draw16 k) fMinusOne = 0x8001 := rfl
  exact ⟨rfl, rfl, by rw [narrow_i16, hcode]; rfl, rfl⟩

/-- The two zeros. -/
theorem eq_of_fMag_eq_zero (h : fMag v = 0) : v = 0x00000000 ∨ v = 0x80000000 := by
  cases hs : fSign v with
  | false => exact .inl (eq_of_fSign_of_fMag (hs.trans (by decide)) (h.trans (by decide)))
  | true => exact .inr (eq_of_fSign_of_fMag (hs.trans (by decide)) (h.trans (by decide)))

/-- The codes of a zero (R207 to R210). -/
theorem narrow_of_fMag_eq_zero (k : Nat) (h : fMag v = 0) :
    narrow .s8 k v = [0xFF] ∧ narrow .u8 k v = [0x7F] ∧ narrow .i16 k v = [0x00, 0x00] ∧
    narrow .f32 k v = [0x00, 0x00, 0x00, if fSign v then 0x80 else 0x00] := by
  have hcode : narrowI16 (Config.draw16 k) v = 0 := by obtain rfl | rfl := eq_of_fMag_eq_zero h <;> rfl
  rw [narrow_i16, hcode]
  obtain rfl | rfl := eq_of_fMag_eq_zero h
  · exact ⟨rfl, rfl, rfl, rfl⟩
  · exact ⟨rfl, rfl, rfl, rfl⟩

/-! ## Square-wave shaping (R207 to R210) -/

theorem fGt_asymm (h : fGt v w = true) : fGt w v = false := by
  simp only [fGt, Bool.and_eq_true, Bool.not_eq_true', decide_eq_true_eq] at h
  simp [fGt, h.2.le]

theorem sqshape_of_pos (h : fGt v fZero = true) : sqshape v = fOne := by rw [sqshape, if_pos h]

theorem sqshape_of_neg (h : fLt v fZero = true) : sqshape v = fMinusOne := by
  rw [sqshape, if_neg (Bool.eq_false_iff.1 (fGt_asymm h)), if_pos h]

theorem sqshape_of_fMag_eq_zero (h : fMag v = 0) : sqshape v = v := by
  obtain rfl | rfl := eq_of_fMag_eq_zero h <;> rfl

/-- Settles O41: by the sign of the sample. -/
theorem squareWaveLaw : Obligations.SquareWaveLaw := by
  refine ⟨fun v k h => ?_, fun v k h => ?_, fun v k h => ?_⟩
  · rw [shape_true, sqshape_of_pos h]
    exact narrow_fOne k
  · rw [shape_true, sqshape_of_neg h]
    exact narrow_fMinusOne k
  · rw [shape_true, sqshape_of_fMag_eq_zero h]
    exact narrow_of_fMag_eq_zero k h

/-! ## Clamping (R212) -/

/-- Only the zeros share a place in the order of values. -/
theorem eq_of_fKey_eq (h : fKey v = fKey w) (h0 : fKey w ≠ 0) : v = w := by
  have hv := natAbs_fKey v
  have hw := natAbs_fKey w
  refine eq_of_fSign_of_fMag ?_ (by omega)
  cases hsv : fSign v <;> cases hsw : fSign w <;>
    simp only [fKey, hsv, hsw, if_true, Bool.false_eq_true, if_false] at h h0 ⊢ <;> omega

theorem shape_of_not_lt_fOne (sq : Bool) (hv : isNaN v = false) (h : fLt v fOne = false) :
    shape sq v = fOne := by
  have hkey : ¬ fKey v < fKey fOne := fun hlt =>
    Bool.eq_false_iff.1 h ((fGt_iff_of_not_nan (by decide) hv).2 hlt)
  cases sq with
  | true =>
    exact sqshape_of_pos ((fGt_iff_of_not_nan hv (by decide)).2
      (lt_of_lt_of_le (by decide) (not_lt.1 hkey)))
  | false =>
    obtain heq | hlt := (not_lt.1 hkey).eq_or_lt
    · rw [eq_of_fKey_eq heq.symm (by decide)]
      rfl
    · rw [shape_false, clamp1, if_pos ((fGt_iff_of_not_nan hv (by decide)).2 hlt)]

theorem shape_of_not_gt_fMinusOne (sq : Bool) (hv : isNaN v = false) (h : fGt v fMinusOne = false) :
    shape sq v = fMinusOne := by
  have hkey : ¬ fKey fMinusOne < fKey v := fun hlt =>
    Bool.eq_false_iff.1 h ((fGt_iff_of_not_nan hv (by decide)).2 hlt)
  cases sq with
  | true =>
    exact sqshape_of_neg ((fGt_iff_of_not_nan (by decide) hv).2
      (lt_of_le_of_lt (not_lt.1 hkey) (by decide)))
  | false =>
    obtain heq | hlt := (not_lt.1 hkey).eq_or_lt
    · rw [eq_of_fKey_eq heq (by decide)]
      rfl
    · have hone : fGt v fOne = false := fGt_asymm
        ((fGt_iff_of_not_nan (by decide) hv).2 (hlt.trans (by decide)))
      have hminus : fLt v fMinusOne = true := (fGt_iff_of_not_nan (by decide) hv).2 hlt
      rw [shape_false, clamp1, if_neg (Bool.eq_false_iff.1 hone), if_pos hminus]

/-- Settles O40: such a sample is shaped to 1.0 or -1.0 itself. -/
theorem clampingLaw : Obligations.ClampingLaw := by
  refine fun v sq k hv => ⟨fun h => ?_, fun h => ?_⟩
  · rw [shape_of_not_lt_fOne sq hv h]
    exact narrow_fOne k
  · rw [shape_of_not_gt_fMinusOne sq hv h]
    exact narrow_fMinusOne k

end Sys2Proof.Machine
end

section
/-! # Bounds that rounding keeps, and the middles it turns at (R129) -/

namespace Sys2Proof.Machine

variable {x : F32}

/-! ## From one grid point to the next -/

/-- Rounding passes pattern `p` from past the middle between it and the next one on, and in the middle if
`p` is odd. -/
theorem lt_roundMag_iff {num den p : Nat} (hden : 0 < den) (hp : p < infMag) :
    p < roundMag num den ↔ (magUnits p + magUnits (p + 1)) * den < 2 * num ∨
      (2 * num = (magUnits p + magUnits (p + 1)) * den ∧ p % 2 = 1) := by
  obtain ⟨g, hg, hr⟩ := exists_isNearestEven num hden
  have ⟨hlo, hloEven⟩ := hg p
  have ⟨hhi, hhiEven⟩ := hg (p + 1)
  have hstep := magUnits_mul_lt hden (Nat.lt_add_one p)
  unfold roundError at hlo hloEven hhi hhiEven
  rw [hr, lt_min_iff, and_iff_left hp, Nat.add_mul]
  obtain hlt | rfl | rfl | hlt : g < p ∨ g = p ∨ g = p + 1 ∨ p + 1 < g := by omega
  · have := magUnits_mul_lt hden hlt
    omega
  · omega
  · omega
  · have := magUnits_mul_lt hden hlt
    omega

/-- The same for the neighbours `k * 2^sh` and `(k + 1) * 2^sh` of 24 significant bits. -/
theorem le_magUnits_roundMag_iff {num den sh k : Nat} (hden : 0 < den) (hsh : sh ≤ 252)
    (hk : 2 ^ 23 ≤ k) (hk' : k < 2 ^ 24) :
    (k + 1) * 2 ^ sh ≤ magUnits (roundMag num den) ↔ (2 * k + 1) * 2 ^ sh * den < 2 * num ∨
      (2 * num = (2 * k + 1) * 2 ^ sh * den ∧ k % 2 = 1) := by
  have hp : sh * 2 ^ 23 + k < infMag := by unfold infMag; omega
  have hlo := magUnits_grid (sh := sh) hk'.le (.inr hk)
  have hhi := magUnits_grid (sh := sh) (k := k + 1) hk' (.inr (by omega))
  have hmid : magUnits (sh * 2 ^ 23 + k) + magUnits (sh * 2 ^ 23 + k + 1) = (2 * k + 1) * 2 ^ sh := by
    rw [hlo, Nat.add_assoc, hhi]; ring
  have hodd : (sh * 2 ^ 23 + k) % 2 = k % 2 := by omega
  rw [← hhi, ← Nat.add_assoc, magUnits_strictMono.le_iff_le, Nat.succ_le_iff,
    lt_roundMag_iff hden hp, hmid, hodd]

/-- Past the middle above `k * 2^sh` a positive result is rounded to `(k + 1) * 2^sh` at least. -/
theorem Rounds.succ_le_units {n : Int} {den sh k : Nat} (h : Rounds x n den) (hsh : sh ≤ 252)
    (hk : 2 ^ 23 ≤ k) (hk' : k < 2 ^ 24) (hmid : ((2 * k + 1) * 2 ^ sh * den : Nat) < 2 * n) :
    ((k + 1) * 2 ^ sh : Nat) ≤ units x := by
  rw [h.units_eq, if_neg (by omega)]
  exact Int.ofNat_le.2
    ((le_magUnits_roundMag_iff h.den_pos hsh hk hk').2 (.inl (by omega)))

/-! ## Bounds on the grid -/

/-- `y` units are the magnitude of a pattern, with either sign; the pattern of the infinities stands for the
point after the greatest finite one. -/
def OnGrid (y : Int) : Prop := ∃ p ≤ infMag, magUnits p = y.natAbs

theorem onGrid_of_natAbs {y : Int} {k sh : Nat} (hk : k ≤ 2 ^ 24) (hsh : sh ≤ 253)
    (hy : y.natAbs = k * 2 ^ sh) : OnGrid y := by
  obtain ⟨p, hp⟩ := exists_magUnits_eq sh hk
  refine ⟨p, magUnits_strictMono.le_iff_le.1 ?_, hp.trans hy.symm⟩
  rw [hp, magUnits_infMag]
  exact Nat.mul_le_mul hk (Nat.pow_le_pow_right (by decide) hsh)

/-- A bound on the grid is kept by rounding. -/
theorem Rounds.le_units {n y : Int} {den : Nat} (h : Rounds x n den) (hy : OnGrid y)
    (hle : y * den ≤ n) : y ≤ units x := by
  obtain ⟨p, hp, hm⟩ := hy
  have hden : (0 : Int) < den := Int.natCast_pos.2 h.den_pos
  rw [h.units_eq]
  by_cases hneg : n < 0
  · have hy0 : y < 0 := neg_of_mul_neg_left (hle.trans_lt hneg) hden.le
    have hnum : n.natAbs ≤ magUnits p * den := by
      rw [hm]
      zify
      rw [abs_of_neg hneg, abs_of_neg hy0]
      linarith
    have := magUnits_strictMono.monotone (roundMag_le_of_le h.den_pos hnum)
    rw [if_pos hneg]
    omega
  · rw [if_neg hneg]
    by_cases hy0 : y < 0
    · omega
    · have hnum : magUnits p * den ≤ n.natAbs := by
        rw [hm]
        zify
        rwa [abs_of_nonneg (not_lt.1 hneg), abs_of_nonneg (not_lt.1 hy0)]
      have := magUnits_strictMono.monotone (le_roundMag_of_le h.den_pos hp hnum)
      omega

/-- Rounding is symmetric about zero. -/
theorem Rounds.neg {n : Int} {den : Nat} (h : Rounds x n den) : Rounds (fNeg x) (-n) den := by
  refine ⟨h.den_pos, by rw [fMag_fNeg, Int.natAbs_neg, h.mag], fun h0 => ?_⟩
  rw [fSign_fNeg, h.sign (neg_ne_zero.1 h0), ← decide_not, decide_eq_decide]
  omega

theorem Rounds.units_le {n y : Int} {den : Nat} (h : Rounds x n den) (hy : OnGrid y)
    (hle : n ≤ y * den) : units x ≤ y := by
  have hneg : OnGrid (-y) := by rwa [OnGrid, Int.natAbs_neg]
  have := h.neg.le_units hneg (by rw [neg_mul]; exact neg_le_neg hle)
  rw [units_fNeg] at this
  omega

/-! ## The casts (R133, R134) -/

/-- The integer nearest to a finite value, halves away from zero. -/
theorem truncInt_roundHaz (hx : isFinite x = true) : truncInt (roundHaz x) =
    if fSign x then -((((units x).natAbs + 2 ^ 148) / 2 ^ 149 : Nat) : Int)
    else (((units x).natAbs + 2 ^ 148) / 2 ^ 149 : Nat) := by
  obtain ⟨-, hm, hs⟩ := roundHaz_of_finite hx
  rw [truncInt, hs, hm, Nat.mul_div_cancel _ (Nat.two_pow_pos 149), natAbs_units]

/-- A value less than a half away from an integer is rounded to it. -/
theorem truncInt_roundHaz_of_near {m : Int} (hx : isFinite x = true)
    (hlo : m * 2 ^ 149 - 2 ^ 148 < units x) (hhi : units x < m * 2 ^ 149 + 2 ^ 148) :
    truncInt (roundHaz x) = m := by
  rw [truncInt_roundHaz hx]
  cases hs : fSign x with
  | false =>
    rw [if_neg Bool.false_ne_true]
    have := units_of_fSign_false hs
    omega
  | true =>
    rw [if_pos rfl]
    have := units_of_fSign_true hs
    omega

/-- The integer part of a value that is not negative. -/
theorem truncInt_of_between {m : Nat} (hlo : m * 2 ^ 149 ≤ units x) (hhi : units x < (m + 1) * 2 ^ 149) :
    truncInt x = m := by
  rw [truncInt, ← natAbs_units]
  cases hs : fSign x with
  | false =>
    rw [if_neg Bool.false_ne_true]
    omega
  | true =>
    rw [if_pos rfl]
    have := units_of_fSign_true hs
    omega

end Sys2Proof.Machine
end

section
/-! # The i16 round trip (R154, R205, R214) -/

namespace Sys2Proof.Machine

variable {x : F32}

theorem InRange.mono {lo hi lo' hi' : Int} (h : InRange lo hi x) (hlo : lo' ≤ lo) (hhi : hi ≤ hi') :
    InRange lo' hi' x :=
  ⟨h.finite, by have := h.lower; omega, by have := h.upper; omega⟩

/-- The cast of a value in range is the code of its integer part (R134). -/
theorem truncCastS16_eq_iff {draw v : BitVec 16} (h : InRange (-32768) 32767 x) :
    truncCastS16 draw x = v ↔ truncInt x = v.toInt := by
  have hok := h.castOk
  rw [truncCastS16, if_pos hok]
  simp only [castOk, Bool.and_eq_true, decide_eq_true_eq] at hok
  obtain ⟨⟨-, hlo⟩, hhi⟩ := hok
  rw [← BitVec.toInt_inj, BitVec.toInt_ofInt_eq_self (by decide) hlo (by omega)]

theorem toInt_eq_sint (v : BitVec 16) : v.toInt = sint 16 v.toNat := by
  rw [BitVec.toInt_eq_toNat_cond, sint]
  split <;> split <;> omega

/-- The scaled magnitude is `a - a / 2^15`. Up to 16384 this is at least `a - 1/2`. From 16385 on the
spacing of the grid is `2^-9`, and the product is rounded up to `a - 1/2` where it lies at most half the
spacing below, which is up to 16416. -/
theorem le_magUnits_scaled_iff {a : Nat} (h0 : 0 < a) (ha : a ≤ 2 ^ 15) :
    (2 * a - 1) * 2 ^ 148 ≤ magUnits (roundMag (a * 2 ^ 134 * (32767 * 2 ^ 149)) (2 ^ 149)) ↔
      a ≤ 16416 := by
  by_cases hsmall : a ≤ 16384
  · obtain ⟨p, hp, hm⟩ := onGrid_of_natAbs (y := ((2 * a - 1) * 2 ^ 148 : Nat)) (k := 2 * a - 1)
      (sh := 148) (by omega) (by decide) (Int.natAbs_natCast _)
    rw [Int.natAbs_natCast] at hm
    have hle := le_roundMag_of_le (num := a * 2 ^ 134 * (32767 * 2 ^ 149)) (Nat.two_pow_pos 149) hp
      (by rw [hm]; omega)
    have := magUnits_strictMono.monotone hle
    omega
  · have hgrid : (2 * a - 1) * 2 ^ 148 = ((2 * a - 1) * 2 ^ 8 - 1 + 1) * 2 ^ 140 := by omega
    rw [hgrid, le_magUnits_roundMag_iff (Nat.two_pow_pos 149) (by decide) (by omega) (by omega)]
    omega

/-- The rounded product of a code's value with 32767 is the code, as far as the rounding to the nearest
integer makes up for `2^-15` of it. -/
theorem truncInt_i16_iff {v : Int} (hv : v.natAbs ≤ 2 ^ 15) (hx : isFinite x = true)
    (hu : units x = v * 2 ^ 134) (hm : isFinite (fmul x f32767) = true) :
    truncInt (roundHaz (fmul x f32767)) = v ↔ -16416 ≤ v ∧ v ≤ 16416 := by
  have hr := rounds_fmul hx (b := f32767) (by decide)
  have hnum : (units x * units f32767).natAbs = v.natAbs * 2 ^ 134 * (32767 * 2 ^ 149) := by
    rw [hu, units_f32767, Int.natAbs_mul, Int.natAbs_mul]
    rfl
  have hmag : (units (fmul x f32767)).natAbs =
      magUnits (roundMag (v.natAbs * 2 ^ 134 * (32767 * 2 ^ 149)) (2 ^ 149)) := by
    rw [natAbs_units, hr.mag, hnum]
  obtain ⟨-, hle⟩ := magUnits_roundMag_le (num := v.natAbs * 2 ^ 134 * (32767 * 2 ^ 149))
    (m := v.natAbs) (Nat.two_pow_pos 149) (by omega) (by omega)
  rw [truncInt_roundHaz hm, hmag]
  by_cases h0 : v = 0
  · subst h0
    simp [roundMag_zero, magUnits_zero]
  · have hiff := le_magUnits_scaled_iff (a := v.natAbs) (by omega) hv
    rw [hr.sign (by rw [hu, units_f32767]; omega), hu, units_f32767]
    split_ifs with hneg
    · rw [decide_eq_true_eq] at hneg
      omega
    · rw [decide_eq_true_eq] at hneg
      omega

theorem leBytes_two_inj {v w : BitVec 16} : leBytes 2 v.toNat = leBytes 2 w.toNat ↔ v = w := by
  refine ⟨fun h => BitVec.eq_of_toNat_eq ?_, fun h => by rw [h]⟩
  rw [← leNat_leBytes (n := 2) v.isLt, h, leNat_leBytes (n := 2) w.isLt]

/-- Settles O44: by the integer that the code's value is rounded to. -/
theorem i16RoundTrip : Obligations.I16RoundTrip := by
  intro v k
  have hrange := inRange_i16map v.isLt
  obtain ⟨hf, hu, -⟩ := i16DecodeExact v.toNat v.isLt
  obtain ⟨-, hlt, hgt⟩ := hrange.not_beyond_one
  have hs : (sint 16 v.toNat).natAbs ≤ 2 ^ 15 := by
    have := v.isLt
    unfold sint
    split <;> omega
  rw [shape_false_eq_self (.inr ⟨hlt, hgt⟩), narrow, ← leBytes_two, leBytes_two_inj, narrowI16,
    truncCastS16_eq_iff (hrange.fmul_f32767.roundHaz.mono (by decide) le_rfl), toInt_eq_sint]
  exact truncInt_i16_iff hs hf hu hrange.fmul_f32767.finite

end Sys2Proof.Machine
end

section
/-! # The 8-bit round trips (R152, R153, R203, R204, R214) -/

namespace Sys2Proof.Machine

variable {x : F32} {n : Nat}

/-! ## The scaled value of a decoded code -/

/-- `255 * ((s + 1) / 2)`, the value that `narrow_s8` and `narrow_u8` start from. -/
def scaled (s : F32) : F32 := fmul f255 (fdiv (fadd s fOne) fTwo)

theorem narrowS8_eq (draw : BitVec 8) (s : F32) :
    narrowS8 draw s = truncCastS8 draw (roundHaz (fsub (scaled s) f128)) := rfl

theorem narrowU8_eq (draw : BitVec 8) (s : F32) : narrowU8 draw s = truncCastU8 draw (scaled s) := rfl

theorem inRange_scaled (h : InRange (-1) 1 x) : InRange 0 255 (scaled x) := h.fdiv_fadd.fmul_f255

/-- The two roundings of `(s + 1) / 2` (R203). -/
theorem rounds_fdiv_fadd (h : InRange (-1) 1 x) : Rounds (fadd x fOne) (units x + 2 ^ 149) 1 ∧
    Rounds (fdiv (fadd x fOne) fTwo) (units (fadd x fOne) * 2 ^ 149) (2 * 2 ^ 149) := by
  obtain ⟨hx, hl, hu⟩ := h
  have hsum := rounds_fadd hx (b := fOne) (by decide)
  rw [units_fOne] at hsum
  have hrange := hsum.inRange (lo := 0) (hi := 2) (by decide) (by omega) (by omega)
  exact ⟨hsum, rounds_fdiv hrange.finite (by decide) units_fTwo (by decide)⟩

/-- The third rounding, of the product with 255. -/
theorem rounds_scaled (h : InRange (-1) 1 x) :
    Rounds (scaled x) (255 * 2 ^ 149 * units (fdiv (fadd x fOne) fTwo)) (2 ^ 149) := by
  have hmul := rounds_fmul (a := f255) (by decide) h.fdiv_fadd.finite
  rwa [units_f255] at hmul

/-- The three roundings of `u8map` (R153). -/
theorem rounds_u8map (hn : n ≤ 255) :
    Rounds (fdiv (i2f n) f255) (n * 2 ^ 149 * 2 ^ 149) (255 * 2 ^ 149) ∧
    Rounds (fmul fTwo (fdiv (i2f n) f255)) (2 * 2 ^ 149 * units (fdiv (i2f n) f255)) (2 ^ 149) ∧
    Rounds (u8map n) (units (fmul fTwo (fdiv (i2f n) f255)) - 2 ^ 149) 1 := by
  obtain ⟨hi, hu⟩ := i2f_exact (n := n) (by omega)
  have hq := rounds_fdiv hi (by decide) units_f255 (by decide)
  rw [hu] at hq
  obtain ⟨hqf, hql, hqu⟩ := hq.inRange (lo := 0) (hi := 1) (by decide) (by omega) (by omega)
  have hd := rounds_fmul (a := fTwo) (by decide) hqf
  rw [units_fTwo] at hd
  have hrange := hd.inRange (lo := 0) (hi := 2) (by decide) (by omega) (by omega)
  have hm := rounds_fsub hrange.finite (b := fOne) (by decide)
  rw [units_fOne] at hm
  exact ⟨hq, hd, hm⟩

/-- The scaled value of a decoded code is the code, with an error of less than `2^-9`. -/
theorem units_scaled_u8map_near (hn : n ≤ 255) : n * 2 ^ 149 - 2 ^ 140 < units (scaled (u8map n)) ∧
    units (scaled (u8map n)) < n * 2 ^ 149 + 2 ^ 140 := by
  have hrange := inRange_u8map (Nat.lt_succ_of_le hn)
  obtain ⟨-, hlo, hhi⟩ := units_u8map_near hn
  have ⟨_, hl, hu⟩ := hrange
  obtain ⟨hsum, hhalf⟩ := rounds_fdiv_fadd hrange
  have ⟨hsum1, hsum2⟩ := hsum.error_le (sh := 126) (by decide) (by omega)
  have ⟨hhalf1, hhalf2⟩ := hhalf.error_le (sh := 126) (by decide) (by omega)
  have ⟨hm1, hm2⟩ := (rounds_scaled hrange).error_le (sh := 134) (by decide) (by omega)
  omega

/-! ## The s8 codec -/

/-- The scaled value less 128 is rounded to the code less 128: its error is less than a half. -/
theorem truncInt_s8_u8map (hn : n ≤ 255) :
    truncInt (roundHaz (fsub (scaled (u8map n)) f128)) = n - 128 := by
  have hrange := inRange_scaled (inRange_u8map (Nat.lt_succ_of_le hn))
  obtain ⟨hlo, hhi⟩ := units_scaled_u8map_near hn
  have hsub := rounds_fsub hrange.finite (b := f128) (by decide)
  rw [units_f128] at hsub
  have ⟨h1, h2⟩ := hsub.error_le (sh := 140) (by decide) (by omega)
  exact truncInt_roundHaz_of_near hrange.fsub_f128.finite (by omega) (by omega)

/-- R214 (a): an s8 code is two's complement, and the u8 code less 128 (R152). -/
theorem narrowS8_s8map (draw b : BitVec 8) : narrowS8 draw (s8map b.toNat) = b := by
  have hn : b.toNat ^^^ 0x80 < 256 := Nat.xor_lt_two_pow (n := 8) b.isLt (by decide)
  have hint : b.toInt = ((b.toNat ^^^ 0x80 : Nat) : Int) - 128 := by
    rw [← sint_add_128 b.isLt, BitVec.toInt_eq_toNat_cond, sint]
    split <;> split <;> omega
  rw [s8map_eq_u8map b.isLt, narrowS8_eq, truncCastS8,
    if_pos (inRange_scaled (inRange_u8map hn)).fsub_f128.roundHaz.castOk,
    truncInt_s8_u8map (Nat.le_of_lt_succ hn), ← hint, BitVec.ofInt_toInt]

/-! ## The cut-off fraction of u8 (R204) -/

/-- A lower bound `2 y - 1` of `s` gives the lower bound `y` of `(s + 1) / 2`, where `2 y` and `y` are on
the grid. -/
theorem le_units_half {y : Int} (h : InRange (-1) 1 x) (hy : OnGrid y) (hy2 : OnGrid (2 * y))
    (hle : 2 * y - 2 ^ 149 ≤ units x) : y ≤ units (fdiv (fadd x fOne) fTwo) := by
  obtain ⟨hsum, hhalf⟩ := rounds_fdiv_fadd h
  have := hsum.le_units hy2 (by omega)
  exact hhalf.le_units hy (by omega)

/-- The same for an upper bound. -/
theorem units_half_le {y : Int} (h : InRange (-1) 1 x) (hy : OnGrid y) (hy2 : OnGrid (2 * y))
    (hle : units x ≤ 2 * y - 2 ^ 149) : units (fdiv (fadd x fOne) fTwo) ≤ y := by
  obtain ⟨hsum, hhalf⟩ := rounds_fdiv_fadd h
  have := hsum.units_le hy2 (by omega)
  exact hhalf.units_le hy (by omega)

/-- A lower bound of the quotient `n / 255` carried through `u8map`. -/
theorem le_units_u8map {y : Int} (hn : n ≤ 255) (hy2 : OnGrid (2 * y)) (hy1 : OnGrid (2 * y - 2 ^ 149))
    (hle : y ≤ units (fdiv (i2f n) f255)) : 2 * y - 2 ^ 149 ≤ units (u8map n) := by
  obtain ⟨-, hd, hm⟩ := rounds_u8map hn
  have := hd.le_units hy2 (by omega)
  exact hm.le_units hy1 (by omega)

/-- From 64 on `n / 255` is rounded up, its bits being those of `n * (2^-8 + 2^-16 + 2^-24 + ...)`. The
spacing doubles at 128. -/
theorem exists_quotient_bound (hlo : 64 ≤ n) (hhi : n ≤ 255) :
    ∃ y : Int, n * 2 ^ 149 ≤ 255 * y ∧ y ≤ units (fdiv (i2f n) f255) ∧
      OnGrid y ∧ OnGrid (2 * y) ∧ OnGrid (2 * y - 2 ^ 149) := by
  obtain ⟨hq, -, -⟩ := rounds_u8map hhi
  by_cases hn : n ≤ 127
  · refine ⟨_, ?_, hq.succ_le_units (sh := 124) (k := 131586 * n) (by decide) (by omega) (by omega)
      (by omega), onGrid_of_natAbs (k := 131586 * n + 1) (sh := 124) ?_ ?_ ?_,
      onGrid_of_natAbs (k := 131586 * n + 1) (sh := 125) ?_ ?_ ?_,
      onGrid_of_natAbs (k := 2 ^ 24 - (131586 * n + 1)) (sh := 125) ?_ ?_ ?_⟩ <;> omega
  · refine ⟨_, ?_, hq.succ_le_units (sh := 125) (k := 65793 * n) (by decide) (by omega) (by omega)
      (by omega), onGrid_of_natAbs (k := 65793 * n + 1) (sh := 125) ?_ ?_ ?_,
      onGrid_of_natAbs (k := 65793 * n + 1) (sh := 126) ?_ ?_ ?_,
      onGrid_of_natAbs (k := 65793 * n + 1 - 2 ^ 23) (sh := 126) ?_ ?_ ?_⟩ <;> omega

/-- The product of the rounded-up quotient with 255 is not below the code. -/
theorem le_units_scaled_u8map (hlo : 64 ≤ n) (hhi : n ≤ 255) :
    n * 2 ^ 149 ≤ units (scaled (u8map n)) := by
  have hrange := inRange_u8map (Nat.lt_succ_of_le hhi)
  obtain ⟨y, hny, hle, hy, hy2, hy1⟩ := exists_quotient_bound hlo hhi
  have hhalf := le_units_half hrange hy hy2 (le_units_u8map hhi hy2 hy1 hle)
  exact (rounds_scaled hrange).le_units
    (onGrid_of_natAbs (k := n) (sh := 149) (by omega) (by decide) (by omega)) (by omega)

/-- Below 64 the difference `2 n / 255 - 1` is rounded on a grid of spacing `2^-24`, where
`2 n / 255` lies less than half the spacing above `2 n * 65793 * 2^-24`. -/
theorem units_u8map_le (hn : n ≤ 63) : units (u8map n) ≤ 2 * (65793 * n * 2 ^ 125) - 2 ^ 149 := by
  obtain ⟨hq, hd, hm⟩ := rounds_u8map (n := n) (by omega)
  have hquot := hq.units_le (y := (4 * 65793 * n + 1) * 2 ^ 123)
    (onGrid_of_natAbs (k := 4 * 65793 * n + 1) (sh := 123) (by omega) (by decide) (by omega)) (by omega)
  have hdouble := hd.units_le (y := (4 * 65793 * n + 1) * 2 ^ 124)
    (onGrid_of_natAbs (k := 4 * 65793 * n + 1) (sh := 124) (by omega) (by decide) (by omega)) (by omega)
  have hunits := hm.units_eq
  have hle := (le_magUnits_roundMag_iff
    (num := (units (fmul fTwo (fdiv (i2f n) f255)) - 2 ^ 149).natAbs) (den := 1) (sh := 125)
    (k := 2 ^ 24 - 2 * 65793 * n - 1) (by decide) (by decide) (by omega) (by omega)).2 (by omega)
  rw [if_pos (by omega)] at hunits
  omega

/-- A relative distance of `2^-24` below the integer `n` is more than half the spacing of the grid there,
so it is not rounded up to `n`. -/
theorem magUnits_roundMag_lt {num den : Nat} (hden : 0 < den) (h0 : 0 < n) (hn : n ≤ 2 ^ 24)
    (h : num ≤ n * (2 ^ 24 - 1) * 2 ^ 125 * den) : magUnits (roundMag num den) < n * 2 ^ 149 := by
  obtain ⟨p', hp'⟩ := exists_magUnits_eq 149 hn
  obtain _ | p := p'
  · rw [magUnits_zero] at hp'
    omega
  obtain ⟨sh, k, rfl, hk, hnorm⟩ := exists_grid p
  have hlo := magUnits_grid hk.le hnorm
  have hhi := magUnits_grid (sh := sh) (k := k + 1) hk (by omega)
  rw [← Nat.add_assoc, hp', Nat.succ_mul] at hhi
  have hspacing : 2 ^ sh < 2 * n * 2 ^ 125 := by
    obtain rfl | hk23 := hnorm
    · omega
    · have := Nat.mul_le_mul_right (2 ^ sh) hk23
      omega
  have hmid : n * (2 ^ 24 - 1) * 2 ^ 125 * den * 2 <
      (magUnits (sh * 2 ^ 23 + k) + magUnits (sh * 2 ^ 23 + k + 1)) * den := by
    rw [Nat.mul_right_comm]
    refine Nat.mul_lt_mul_of_pos_right ?_ hden
    omega
  have hfin : sh * 2 ^ 23 + k < infMag := by
    rw [← Nat.succ_le_iff, ← magUnits_strictMono.le_iff_le, hp', magUnits_infMag]
    exact Nat.mul_le_mul hn (by decide)
  rw [← hp', magUnits_strictMono.lt_iff_lt, Nat.lt_succ_iff, ← not_lt, lt_roundMag_iff hden hfin]
  omega

/-- The product of the rounded-down quotient with 255 is below the code. -/
theorem units_scaled_u8map_lt (h0 : 0 < n) (hn : n ≤ 63) : units (scaled (u8map n)) < n * 2 ^ 149 := by
  have hrange := inRange_u8map (n := n) (by omega)
  have hhalf := units_half_le hrange
    (onGrid_of_natAbs (k := 65793 * n) (sh := 125) (by omega) (by decide) (by omega))
    (onGrid_of_natAbs (k := 65793 * n) (sh := 126) (by omega) (by decide) (by omega)) (units_u8map_le hn)
  have hm := rounds_scaled hrange
  have hunits := hm.units_eq
  obtain ⟨-, hhalf0, -⟩ := hrange.fdiv_fadd
  have := magUnits_roundMag_lt (n := n) hm.den_pos h0 (by omega) (num :=
    (255 * 2 ^ 149 * units (fdiv (fadd (u8map n) fOne) fTwo)).natAbs) (by omega)
  rw [if_neg (by omega)] at hunits
  omega

/-- The scaled values of codes 1 to 63 lie just below the code, and the cut takes a whole step (R214 (b)). -/
theorem truncInt_scaled_u8map (hn : n ≤ 255) : truncInt (scaled (u8map n)) =
    ((if 1 ≤ n ∧ n ≤ 63 then n - 1 else n : Nat) : Int) := by
  obtain ⟨hlo, hhi⟩ := units_scaled_u8map_near hn
  split_ifs with h
  · have hlt := units_scaled_u8map_lt h.1 h.2
    exact truncInt_of_between (by omega) (by omega)
  · refine truncInt_of_between ?_ (by omega)
    obtain rfl | h64 : n = 0 ∨ 64 ≤ n := by omega
    · exact (inRange_scaled (inRange_u8map (by decide))).lower
    · exact le_units_scaled_u8map h64 hn

/-- R214 (b): the integer part of the scaled value. -/
theorem narrowU8_u8map (draw b : BitVec 8) : narrowU8 draw (u8map b.toNat) =
    if 1 ≤ b.toNat ∧ b.toNat ≤ 63 then b - 1 else b := by
  rw [narrowU8_eq, truncCastU8, if_pos (inRange_scaled (inRange_u8map b.isLt)).castOk,
    truncInt_scaled_u8map (Nat.le_of_lt_succ b.isLt), BitVec.ofInt_natCast]
  split_ifs with h
  · bv_omega
  · rw [BitVec.ofNat_toNat, BitVec.setWidth_eq]

/-- Settles O43: a decoded value is not clamped, and the scaled value is near the code. -/
theorem eightBitRoundTrips : Obligations.EightBitRoundTrips := by
  intro b k
  obtain ⟨-, hlt, hgt⟩ := (inRange_u8map b.isLt).not_beyond_one
  obtain ⟨-, hlt', hgt'⟩ := (inRange_s8map b.isLt).not_beyond_one
  rw [shape_false_eq_self (.inr ⟨hlt, hgt⟩), shape_false_eq_self (.inr ⟨hlt', hgt'⟩), narrow_s8,
    narrow_u8, narrowS8_s8map, narrowU8_u8map]
  exact ⟨rfl, rfl⟩

end Sys2Proof.Machine
end

section
/-! # `START`, a failed `READ` and `NEXT`, and the faults of each operation (R226, R228, R238, R250) -/

namespace Sys2Proof.Machine

variable {s t : State}

/-! ## `START` (R226) -/

/-- `ok_cfg` in the bits and registers of R226. -/
theorem okCfg_iff : okCfg s = true ↔
    (s.mode.getLsbD 10 = true ∧ s.samplerate ≠ 0) ∧ s.mode.getLsbD 8 = true ∧
    s.mode.getLsbD 9 = true ∧ (s.mode.getLsbD 12 = true ∧ s.bandwidth ≠ 0) ∧
    s.mode.getLsbD 5 = true ∧ (s.mode.getLsbD 13 = true ∧ s.deviation ≠ 0) ∧
    (s.mode.getLsbD 11 = false ∨ s.resamplerate ≠ 0) := by
  simp only [okCfg, resamplerateOk, modeSamplerateV, modeIntypeV, modeOuttypeV, modeBandwidthV,
    modeFm, modeDeviationV, modeResamplerateV, Bool.and_eq_true, Bool.or_eq_true,
    Bool.not_eq_true', bne_iff_ne, and_assoc]

theorem exec_start_of_okCfg (h : okCfg s = true) :
    exec .start s = .next { s with drvState := .running, phase := 1 } :=
  if_pos h

theorem exec_start_of_not_okCfg (h : ¬ okCfg s = true) :
    exec .start s = .next (raiseFault fConfig s) :=
  if_neg h

/-- Settles O45: the check passes exactly under the statement's conditions. -/
theorem startResult : Obligations.StartResult := by
  intro s
  dsimp only
  rw [← okCfg_iff]
  exact ⟨exec_start_of_okCfg, exec_start_of_not_okCfg⟩

/-! ## `READ` where the source fails (R252) -/

theorem exec_read_of_err {rest : List SrcReply} (h : s.srcReplies = .err :: rest) :
    exec .read s = .next (raiseFault fRead { s with
      srcReplies := rest, trace := s.trace ++ [.srcRead Config.bufferSize]
      inRest := s.inRest.drop (Config.drawNat s.draws), draws := s.draws + 1 }) := by
  simp only [exec, execRead, h]
  rfl

/-- Settles O47: an answer `ok` stores its bytes and leaves `DRV_STATE` and `FAULT_CODE` alone; `err` is
the fault entry after some bytes are gone. -/
theorem readFailure : Obligations.ReadFailure := by
  refine ⟨fun s n rest h => ⟨_, exec_read_of_ok h, rfl, rfl⟩, fun s rest h => ?_⟩
  refine ⟨_, Config.drawNat s.draws, exec_read_of_err h, rfl, ?_, (by decide : Config.exitFail ≠ 0)⟩
  simp [raiseFault, fRead, bufferSize_eq]

/-! ## `NEXT` (R238) -/

theorem exec_next_of_last (h : s.last = true) :
    exec .next s = .next { s with drvState := .stopped, exitStatus := 0 } :=
  if_pos h

theorem exec_next_of_not_last (h : s.last = false) : exec .next s = .next { s with phase := 3 } :=
  if_neg (by simp [h])

/-- Settles O50: by `LAST`; in `STOPPED` the sequencer waits. -/
theorem nextResult : Obligations.NextResult :=
  ⟨fun _ h => by simp only [issue, h], fun _ => exec_next_of_not_last, fun _ => exec_next_of_last⟩

/-! ## The faults of each operation (R250) -/

/-- An operation that ends the run in `FAILED` has entered a fault of its own class, after moves of its
own that leave the control of the run alone. -/
theorem exec_failed_cases {i : Instr} (hd : s.drvState ≠ .failed) (h : exec i s = .next t)
    (hf : t.drvState = .failed) :
    ∃ c e, t = raiseFault c e ∧ c ∈ faultCodesOf i ∧ SameControl s e := by
  cases i using instr_groups with
  | dec τ =>
    obtain rfl := exec_dec_cases h
    exact absurd hf hd
  | enc τ sq =>
    obtain rfl := exec_enc_cases h
    exact absurd hf hd
  | start =>
    rcases exec_start_cases h with ⟨-, rfl⟩ | ⟨-, rfl⟩
    · cases hf
    · exact ⟨_, _, rfl, List.mem_singleton_self _, rfl⟩
  | next =>
    rcases exec_next_cases h with ⟨-, rfl⟩ | ⟨-, rfl⟩
    · cases hf
    · exact absurd hf hd
  | derive =>
    rcases exec_derive_cases h with ⟨-, rfl⟩ | ⟨-, rfl⟩
    · exact absurd hf hd
    · exact ⟨_, _, rfl, List.mem_singleton_self _, rfl⟩
  | init =>
    rcases exec_init_cases h with rfl | ⟨_, rfl⟩ | ⟨_, -, -, rfl⟩
    · exact absurd hf hd
    · exact absurd hf hd
    · exact ⟨_, _, rfl, List.mem_singleton_self _, rfl⟩
  | filter =>
    obtain ⟨_, -, rfl | ⟨_, _, -, rfl⟩ | rfl⟩ := exec_filter_cases h
    · exact absurd hf hd
    · exact absurd hf hd
    · exact ⟨_, _, rfl, List.mem_singleton_self _, rfl⟩
  | resample =>
    obtain ⟨_, -, rfl | ⟨_, _, -, -, rfl⟩ | rfl⟩ := exec_resample_cases h
    · exact absurd hf hd
    · exact absurd hf hd
    · exact ⟨_, _, rfl, List.mem_singleton_self _, rfl⟩
  | demod =>
    obtain ⟨_, -, rfl | ⟨_, _, -, rfl⟩ | rfl⟩ := exec_demod_cases h
    · exact absurd hf hd
    · exact absurd hf hd
    · exact ⟨_, _, rfl, List.mem_singleton_self _, rfl⟩
  | read =>
    rcases exec_read_cases h with rfl | ⟨_, _, -, rfl⟩ | ⟨_, -, rfl⟩
    · exact absurd hf hd
    · exact absurd hf hd
    · exact ⟨_, _, rfl, List.mem_singleton_self _, rfl⟩
  | write =>
    rcases exec_write_cases h with rfl | ⟨_, -, rfl⟩ | ⟨_, -, rfl⟩
    · exact absurd hf hd
    · exact absurd hf hd
    · exact ⟨_, _, rfl, List.mem_singleton_self _, rfl⟩
  | flush =>
    rcases exec_flush_cases h with rfl | ⟨_, -, rfl⟩ | ⟨_, -, rfl⟩
    · exact absurd hf hd
    · exact absurd hf hd
    · exact ⟨_, _, rfl, List.mem_singleton_self _, rfl⟩

/-- Settles O52: fault entry records the code and the exit status and keeps `PHASE`. -/
theorem faultsByOperation : Obligations.FaultsByOperation := by
  intro i s t hd h hf
  obtain ⟨c, e, rfl, hc, hs⟩ := exec_failed_cases hd h hf
  exact ⟨hc, hs.phase, (by decide : Config.exitFail ≠ 0)⟩

end Sys2Proof.Machine
end

section
/-! # One iteration (R225, R231, R238, R240)

From phase 3 the nine steps are `READ` and `DEC`, the three stages of the chain, `ENC`, `WRITE` and
`FLUSH`, and `NEXT`. Each group has one lemma that gives the state it ends in. Where groups are chained,
that state is given an opaque name: `simp` then finds a field of it by the laws of the updates, where
definitional equality would compare whole states. -/

namespace Sys2Proof.Machine

variable {s t : State}

theorem run_succ_of_step (M : Host.Core) {s t : M.State} (k : Nat) (h : M.step s = .next t) :
    M.run (k + 1) s = M.run k t := by
  simp only [Host.Core.run, h]

/-- In `RUNNING` the first of `k + 1` steps is the operation of the phase. -/
theorem runSteps_of_exec {p : BitVec 4} {i : Instr} (k : Nat) (hr : s.drvState = .running)
    (hp : s.phase = p) (hi : opOfPhase p.toNat s.mode = some i) (h : exec i s = .next t) :
    runSteps (k + 1) s = runSteps k t := by
  subst hp
  exact run_succ_of_step Sys2Proof.core k ((step_of_running hr hi).trans h)

theorem runSteps_one_of_exec {p : BitVec 4} {i : Instr} (hr : s.drvState = .running)
    (hp : s.phase = p) (hi : opOfPhase p.toNat s.mode = some i) (h : exec i s = .next t) :
    runSteps 1 s = .next t :=
  runSteps_of_exec 0 hr hp hi h

/-! ## `READ` and `DEC` -/

/-- What `READ` has stored is what `DEC` reads. -/
@[simp] theorem chunk_storeChunk (d : List Byte) (s : State) : chunk (storeChunk d s) = d :=
  reads_write .buf s.buf 0 d

/-- What `DEC` has stored is what `FILTER` reads. -/
@[simp] theorem cbufIn_decodeChunk (τ : SampleType) (s : State) :
    cbufIn (decodeChunk τ s) = decodeSamples τ (chunk s) :=
  readArray_writeArray _ _ _

/-- The source has answered `ok n`, and what it delivered is stored and decoded. -/
@[simp] def afterInput (n : Nat) (rest : List SrcReply) (s : State) : State :=
  decodeChunk (modeIntype s.mode) (storeChunk (delivered s n) { s with
    srcReplies := rest, trace := s.trace ++ [.srcRead Config.bufferSize] })

theorem runSteps_input {n : Nat} {rest : List SrcReply} (k : Nat) (hr : s.drvState = .running)
    (hp : s.phase = 3) (h : s.srcReplies = .ok n :: rest) :
    runSteps (k + 2) s = runSteps k (afterInput n rest s) :=
  (runSteps_of_exec (k + 1) hr hp rfl (exec_read_of_ok h)).trans
    (runSteps_of_exec k hr (congrArg (· + 1) hp) rfl (exec_decOf _ _))

theorem cbufIn_afterInput (n : Nat) (rest : List SrcReply) (s : State) :
    cbufIn (afterInput n rest s) = decodeSamples (modeIntype s.mode) (delivered s n) := by
  simp only [afterInput, cbufIn_decodeChunk, chunk_storeChunk]

/-! ## The stages of the chain -/

section Stages

variable {c : ChainSt} {f' : FiltSt} {r' : RsSt} {d' : DmSt} {y z : List ComplexSample} {x : List F32}

/-- `FILTER` has answered `y`; the chain is now `c`. -/
@[simp] def filterStored (c : ChainSt) (y : List ComplexSample) (s : State) : State :=
  advance { s with
    trace := s.trace ++ [.filterApply], tcs := some c, cbuf := writeArray s.cbuf y }

/-- `RESAMPLE` has answered `z`; the chain is now `c`. -/
@[simp] def resampleStored (c : ChainSt) (z : List ComplexSample) (s : State) : State :=
  advance { s with
    trace := s.trace ++ [.resamplerProcess], tcs := some c, m := z.length
    rcbuf := writeArray s.rcbuf z }

/-- `DEMOD` has answered `x`; the chain is now `c`. -/
@[simp] def demodStored (c : ChainSt) (x : List F32) (s : State) : State :=
  advance { s with
    trace := s.trace ++ [.demodProcess], tcs := some c, rbuf := writeArray s.rbuf x }

section Answered

variable (hr : s.drvState = .running) (hready : s.tcReady = true) (hc : s.tcs = some c)
include hr hready hc

theorem runSteps_filter (k : Nat) (hp : s.phase = 5)
    (hy : tcFilterApply s c.filt (cbufIn s) = some (f', y)) :
    runSteps (k + 1) s = runSteps k (filterStored { c with filt := f' } y s) :=
  runSteps_of_exec k hr hp rfl
    ((exec_filter_of_ready hc hready).trans (congrArg _ (filterStage_of_answer hy)))

theorem runSteps_resample (k : Nat) (hp : s.phase = 6)
    (hz : tcResamplerProcess s c.rs (cbufIn s) = some (r', z))
    (hfit : fitsCap s.mCap z.length = true) :
    runSteps (k + 1) s = runSteps k (resampleStored { c with rs := r' } z s) :=
  runSteps_of_exec k hr hp rfl
    ((exec_resample_of_ready hc hready).trans (congrArg _ (resampleStage_of_fits hz hfit)))

theorem runSteps_demod (k : Nat) (hp : s.phase = 7)
    (hx : tcDemodProcess s c.dm (rcbufIn s) = some (d', x)) :
    runSteps (k + 1) s = runSteps k (demodStored { c with dm := d' } x s) :=
  runSteps_of_exec k hr hp rfl
    ((exec_demod_of_ready hc hready).trans (congrArg _ (demodStage_of_answer hx)))

end Answered

/-- What `FILTER` has stored is what `RESAMPLE` reads: `y` has the length `NC` (R191). -/
theorem cbufIn_filterStored (c : ChainSt) (h : y.length = s.nc) : cbufIn (filterStored c y s) = y := by
  change readArray _ (writeArray s.cbuf y) s.nc = y
  rw [← h]
  exact readArray_writeArray _ s.cbuf y

/-- What `RESAMPLE` has stored is what `DEMOD` reads. -/
theorem rcbufIn_resampleStored (c : ChainSt) (z : List ComplexSample) (s : State) :
    rcbufIn (resampleStored c z s) = z :=
  readArray_writeArray _ s.rcbuf z

/-- What `DEMOD` has stored is what `ENC` reads: `x` has the length `M` (R191). -/
theorem rbufIn_demodStored (c : ChainSt) (h : x.length = s.m) : rbufIn (demodStored c x s) = x := by
  change readArray _ (writeArray s.rbuf x) s.m = x
  rw [← h]
  exact readArray_writeArray _ s.rbuf x

/-- The chain, now in `⟨f', r', d'⟩`, has made `x` of the samples in `CBUF`, by way of `y` and `z`. -/
@[simp] def afterChain (c : ChainSt) (f' : FiltSt) (r' : RsSt) (d' : DmSt) (y z : List ComplexSample)
    (x : List F32) (s : State) : State :=
  demodStored ⟨f', r', d'⟩ x (resampleStored ⟨f', r', c.dm⟩ z (filterStored ⟨f', c.rs, c.dm⟩ y s))

/-- Each stage is called on what the one before it answered. -/
theorem runSteps_chain (k : Nat) (hr : s.drvState = .running) (hp : s.phase = 5)
    (hready : s.tcReady = true) (hc : s.tcs = some c)
    (hy : tcFilterApply s c.filt (cbufIn s) = some (f', y))
    (hz : tcResamplerProcess s c.rs y = some (r', z)) (hfit : fitsCap s.mCap z.length = true)
    (hx : tcDemodProcess s c.dm z = some (d', x)) :
    runSteps (k + 3) s = runSteps k (afterChain c f' r' d' y z x s) := by
  obtain ⟨s1, h1⟩ : ∃ t, t = filterStored { c with filt := f' } y s := ⟨_, rfl⟩
  obtain ⟨s2, h2⟩ : ∃ t, t = resampleStored ⟨f', r', c.dm⟩ z s1 := ⟨_, rfl⟩
  have hz1 : tcResamplerProcess s1 c.rs (cbufIn s1) = some (r', z) := by
    rw [h1, cbufIn_filterStored _ (tcFilterApply_cbufIn_length hy)]
    exact hz
  have hx2 : tcDemodProcess s2 c.dm (rcbufIn s2) = some (d', x) := by
    rw [h2, rcbufIn_resampleStored, h1]
    exact hx
  calc runSteps (k + 3) s
    _ = runSteps (k + 2) s1 := h1 ▸ runSteps_filter hr hready hc (k + 2) hp hy
    _ = runSteps (k + 1) s2 :=
      h2 ▸ runSteps_resample (c := ⟨f', c.rs, c.dm⟩) (by simp [h1, hr]) (by simp [h1, hready])
        (by simp [h1]) (k + 1) (by simp [h1, hp]) hz1 (by simpa [h1] using hfit)
    _ = runSteps k (afterChain c f' r' d' y z x s) := by
      rw [afterChain, ← h1, ← h2]
      exact runSteps_demod (c := ⟨f', r', c.dm⟩) (by simp [h2, h1, hr]) (by simp [h2, h1, hready])
        (by simp [h2]) k (by simp [h2, h1, hp]) hx2

/-- The samples that `ENC` reads are those that `DEMOD` answered, one for each of `z`. -/
theorem rbufIn_afterChain (h : x.length = z.length) :
    rbufIn (afterChain c f' r' d' y z x s) = x :=
  rbufIn_demodStored _ h

end Stages

/-! ## `ENC`, `WRITE` and `FLUSH` -/

/-- What `ENC` has stored is what `WRITE` reads. -/
@[simp] theorem outBytes_encodeBuffer (τ : SampleType) (sq : Bool) (s : State) :
    outBytes (encodeBuffer τ sq s) = encodeSamples τ sq s.draws (rbufIn s) :=
  reads_write .obuf s.obuf 0 _

/-- The output samples are encoded, and the sink has taken and flushed the bytes. -/
@[simp] def afterOutput (rest : List SnkReply) (s : State) : State :=
  let e := encodeBuffer (modeOuttype s.mode) (modeSq s.mode) s
  { e with
    snkReplies := rest
    trace := e.trace ++ [.snkWrite e.obLen] ++ [.snkFlush]
    outAcc := e.outAcc ++ outBytes e
    flushed := (e.outAcc ++ outBytes e).length
    phase := e.phase + 1 + 1 }

theorem runSteps_output {rest : List SnkReply} (k : Nat) (hr : s.drvState = .running)
    (hp : s.phase = 8) (h : s.snkReplies = .ok :: .ok :: rest) :
    runSteps (k + 3) s = runSteps k (afterOutput rest s) :=
  calc runSteps (k + 3) s
    _ = runSteps (k + 2) _ := runSteps_of_exec _ hr hp rfl (exec_encOf _ _ s)
    _ = runSteps (k + 1) _ := runSteps_of_exec _ hr (congrArg (· + 1) hp) rfl (exec_write_of_ok h)
    _ = runSteps k (afterOutput rest s) :=
      runSteps_of_exec _ hr (congrArg (· + 1 + 1) hp) rfl (flushResult.1 _ rest rfl)

theorem outAcc_afterOutput (rest : List SnkReply) (s : State) : (afterOutput rest s).outAcc =
    s.outAcc ++ encodeSamples (modeOuttype s.mode) (modeSq s.mode) s.draws (rbufIn s) :=
  congrArg (s.outAcc ++ ·) (outBytes_encodeBuffer _ _ s)

/-! ## The iteration -/

/-- Eight steps bring the run before `NEXT`, with the encoded samples flushed. -/
theorem runSteps_to_next {c : ChainSt} {n : Nat} {rs : List SrcReply} {ks : List SnkReply}
    {f' : FiltSt} {r' : RsSt} {d' : DmSt} {y z : List ComplexSample} {x : List F32}
    (hr : s.drvState = .running) (hp : s.phase = 3) (hready : s.tcReady = true)
    (hc : s.tcs = some c) (hsrc : s.srcReplies = .ok n :: rs)
    (hsnk : s.snkReplies = .ok :: .ok :: ks)
    (hy : tcFilterApply s c.filt (decodeSamples (modeIntype s.mode) (delivered s n)) = some (f', y))
    (hz : tcResamplerProcess s c.rs y = some (r', z)) (hfit : fitsCap s.mCap z.length = true)
    (hx : tcDemodProcess s c.dm z = some (d', x)) :
    ∃ t, runSteps 9 s = runSteps 1 t ∧ t.drvState = .running ∧ t.phase = 11 ∧
      t.last = shortRead (delivered s n).length ∧
      t.outAcc = s.outAcc ++ encodeSamples (modeOuttype s.mode) (modeSq s.mode) s.draws x ∧
      t.flushed = t.outAcc.length ∧ s.inRest = delivered s n ++ t.inRest ∧
      t.tcs = some ⟨f', r', d'⟩ ∧ t.srcReplies = rs ∧ t.snkReplies = ks := by
  obtain ⟨t1, h1⟩ : ∃ t, t = afterInput n rs s := ⟨_, rfl⟩
  obtain ⟨t2, h2⟩ : ∃ t, t = afterChain c f' r' d' y z x t1 := ⟨_, rfl⟩
  obtain ⟨t3, h3⟩ : ∃ t, t = afterOutput ks t2 := ⟨_, rfl⟩
  rw [← cbufIn_afterInput n rs] at hy
  have run : runSteps 9 s = runSteps 1 t3 :=
    calc runSteps 9 s
      _ = runSteps 7 t1 := h1 ▸ runSteps_input 7 hr hp hsrc
      _ = runSteps 4 t2 := h2 ▸ runSteps_chain 4 (by simp [h1, hr]) (by simp [h1, hp])
        (by simp [h1, hready]) (by simp [h1, hc]) (h1 ▸ hy) (h1 ▸ hz) (by simpa [h1] using hfit)
        (h1 ▸ hx)
      _ = runSteps 1 t3 := h3 ▸ runSteps_output 1 (by simp [h2, h1, hr]) (by simp [h2, h1, hp])
        (by simp [h2, h1, hsnk])
  have encoded : t3.outAcc =
      s.outAcc ++ encodeSamples (modeOuttype s.mode) (modeSq s.mode) s.draws x := by
    rw [h3, outAcc_afterOutput, h2, rbufIn_afterChain (tcDemodProcess_length hx)]
    simp [h1]
  have consumed : s.inRest = delivered s n ++ t3.inRest := by
    simp [h3, h2, h1, delivered_append_drop]
  exact ⟨t3, run, by simp [h3, h2, h1, hr], by simp [h3, h2, h1, hp], by simp [h3, h2, h1], encoded,
    by simp [h3], consumed, by simp [h3, h2], by simp [h3, h2, h1], by simp [h3]⟩

/-- Settles O60: after the eight steps before it, `NEXT` looks at the length read. -/
theorem oneIteration : Obligations.OneIteration := by
  intro s c n rs ks f' r' d' y z x hr hp hready hc hsrc hsnk hy hz hfit hx
  obtain ⟨t, run, hrt, hpt, hlast, results⟩ :=
    runSteps_to_next hr hp hready hc hsrc hsnk hy hz hfit hx
  obtain ⟨hout, hflushed, hin, htcs, hsrct, hsnkt⟩ := results
  rw [run]
  split_ifs with hlen
  · have hl : t.last = true := hlast.trans ((shortRead_iff _).2 hlen)
    exact ⟨_, runSteps_one_of_exec hrt hpt rfl (exec_next_of_last hl), hout, hflushed, hin, htcs,
      hsrct, hsnkt, rfl, rfl, hpt⟩
  · have hl : t.last = false :=
      hlast.trans (Bool.eq_false_iff.2 (mt (shortRead_iff _).1 hlen))
    exact ⟨_, runSteps_one_of_exec hrt hpt rfl (exec_next_of_not_last hl), hout, hflushed, hin, htcs,
      hsrct, hsnkt, hrt, rfl⟩

end Sys2Proof.Machine
end

section
/-! # Reset in any state (R280 to R286) -/

namespace Sys2Proof.Machine

variable {s : State}

/-! ## The output a reset leaves (R286) -/

/-- A `WRITE` in progress: some prefix of its bytes was accepted (R64). -/
theorem acceptedAtReset_of_write (hr : s.drvState = .running) (hp : s.phase = 9) :
    acceptedAtReset s = s.outAcc ++ (outBytes s).take (Config.drawNat s.draws) :=
  if_pos (by simp [hr, hp])

/-- No `WRITE` in progress: what was accepted stays as it was. -/
theorem acceptedAtReset_of_not_write (h : s.drvState ≠ .running ∨ s.phase ≠ 9) :
    acceptedAtReset s = s.outAcc :=
  if_neg (by rwa [Bool.and_eq_true, beq_iff_eq, beq_iff_eq, not_and_or])

/-- Reset adds a prefix of `OBUF[0 .. OB_LEN]` to the output, in every state. -/
theorem acceptedAtReset_eq_append_prefix (s : State) :
    ∃ p, p <+: outBytes s ∧ acceptedAtReset s = s.outAcc ++ p := by
  by_cases h : s.drvState = .running ∧ s.phase = 9
  · obtain ⟨hr, hp⟩ := h
    exact ⟨_, List.take_prefix _ _, acceptedAtReset_of_write hr hp⟩
  · have kept := acceptedAtReset_of_not_write (not_and_or.1 h)
    exact ⟨[], List.nil_prefix, kept.trans (List.append_nil _).symm⟩

/-! ## The reset state and what is kept -/

@[simp] theorem hostReset_outAcc (s : State) : (hostReset s).outAcc = acceptedAtReset s := rfl

@[simp] theorem hostReset_draws (s : State) : (hostReset s).draws = s.draws + 1 := rfl

/-- Settles O10: reset is that update of the reset state, and the output grows by whether a `WRITE` is
in progress. -/
theorem resetAbandonsRun : Obligations.ResetAbandonsRun := by
  intro s
  rw [hostReset_outAcc, hostReset_draws]
  exact ⟨rfl, Nat.lt_succ_self _, acceptedAtReset_of_not_write, acceptedAtReset_eq_append_prefix s⟩

end Sys2Proof.Machine
end
